-- ==== Sys2Proof/Word.lean ====
section
/-! DEFINITION. The word and byte types of CTS-BE (00_scope R6, R8): a word is a 32-bit unsigned integer. -/

namespace Sys2Proof

/-- A 32-bit unsigned word, the width of every register (00_scope R6, R8). -/
abbrev Word := BitVec 32

/-- One byte of a byte stream (00_scope R10). -/
abbrev Byte := BitVec 8

end Sys2Proof
end

