-- ==== Sys2Proof/Syntax.lean ====
section
/-! DEFINITION. The instructions of CTS-BE, one constructor per row of spec/opcode_table.json; the registers of the
window; the encoded forms; and the raw host access. -/

namespace Sys2Proof

/-- The 50 rows of the opcode table: ten command words (30_encoding R84) and a read and a write of each of the twenty
register groups (30_encoding R86). A write carries its 32-bit value (R82). -/
inductive Instr where
  -- format CMD
  | nop
  | init
  | append1
  | append2
  | append3
  | append4
  | process
  | flush
  | finalize
  | sreset
  -- format BUS
  | rdId
  | wrId (v : Word)
  | rdCtrl
  | wrCtrl (v : Word)
  | rdStatus
  | wrStatus (v : Word)
  | rdErrInfo
  | wrErrInfo (v : Word)
  | rdIntEn
  | wrIntEn (v : Word)
  | rdCmd
  | wrCmd (c : Word)
  | rdDin
  | wrDin (v : Word)
  | rdDout
  | wrDout (v : Word)
  | rdBufBytes
  | wrBufBytes (v : Word)
  | rdOutBytes
  | wrOutBytes (v : Word)
  | rdTotalLo
  | wrTotalLo (v : Word)
  | rdTotalHi
  | wrTotalHi (v : Word)
  | rdCfg
  | wrCfg (v : Word)
  | rdCap
  | wrCap (v : Word)
  | rdKey (i : Fin 8)
  | wrKey (i : Fin 8) (v : Word)
  | rdIv (i : Fin 4)
  | wrIv (i : Fin 4) (v : Word)
  | rdChain (i : Fin 4)
  | wrChain (i : Fin 4) (v : Word)
  | rdHash (i : Fin 8)
  | wrHash (i : Fin 8) (v : Word)
  | rdKs (i : Fin 64)
  | wrKs (i : Fin 64) (v : Word)
  | rdIks (i : Fin 64)
  | wrIks (i : Fin 64) (v : Word)
  deriving DecidableEq, Repr

/-- The ten operations a command word selects (30_encoding R84), what `CMD` decodes to. -/
inductive Command where
  | nop | init | append1 | append2 | append3 | append4 | process | flush | finalize | sreset
  deriving DecidableEq, Repr

/-- The table row a command stands for. -/
def Command.toInstr : Command → Instr
  | .nop => .nop
  | .init => .init
  | .append1 => .append1
  | .append2 => .append2
  | .append3 => .append3
  | .append4 => .append4
  | .process => .process
  | .flush => .flush
  | .finalize => .finalize
  | .sreset => .sreset

/-- The mapped registers of the window (10_state R22). The schedule indexes are the 6-bit field a[7:2]; only 0..59
exist. -/
inductive Reg where
  | id | ctrl | status | errInfo | intEn | cmd | din | dout | bufBytes | outBytes | totalLo | totalHi | cfg | cap
  | key (i : Fin 8)
  | iv (i : Fin 4)
  | chain (i : Fin 4)
  | hash (i : Fin 8)
  | ks (i : Fin 64)
  | iks (i : Fin 64)
  deriving DecidableEq, Repr

/-- An encoded operation (30_encoding R80): a command word of format CMD, or a read or a write of format BUS at a byte
offset `a[9:0]`, a write with its value. -/
inductive Encoded where
  | cmd (c : Word)
  | read (a : BitVec 10)
  | write (a : BitVec 10) (v : Word)
  deriving DecidableEq, Repr

/-- One access as the host puts it on the bus, not yet checked (20_memory R63): direction, byte address in the host's
space, width in bits, and the data of a write. -/
structure HostAccess where
  isWrite : Bool
  addr : Nat
  width : Nat
  data : Word
  deriving DecidableEq, Repr

end Sys2Proof
end

