-- ==== Sys2Proof/WellFormed.lean ====
section
/-! DEFINITION. When an instruction term is one the encoding has: a schedule register's index is 0..59
(10_state R22: 0x1F0 to 0x1FC and 0x2F0 to 0x2FC are unmapped). Every other operand's type is its field's range. -/

namespace Sys2Proof

/-- The registers the map of 10_state R22 has. -/
def Reg.mapped : Reg → Bool
  | .ks i => decide (i.val < 60)
  | .iks i => decide (i.val < 60)
  | .id | .ctrl | .status | .errInfo | .intEn | .cmd | .din | .dout | .bufBytes | .outBytes | .totalLo | .totalHi
  | .cfg | .cap | .key _ | .iv _ | .chain _ | .hash _ => true

/-- The instructions the encoding has (30_encoding R84, R86; the opcode table's note on i = 60..63). -/
def Instr.wf : Instr → Bool
  | .rdKs i | .wrKs i _ | .rdIks i | .wrIks i _ => decide (i.val < 60)
  | .nop | .init | .append1 | .append2 | .append3 | .append4 | .process | .flush | .finalize | .sreset
  | .rdId | .wrId _ | .rdCtrl | .wrCtrl _ | .rdStatus | .wrStatus _ | .rdErrInfo | .wrErrInfo _ | .rdIntEn
  | .wrIntEn _ | .rdCmd | .wrCmd _ | .rdDin | .wrDin _ | .rdDout | .wrDout _ | .rdBufBytes | .wrBufBytes _
  | .rdOutBytes | .wrOutBytes _ | .rdTotalLo | .wrTotalLo _ | .rdTotalHi | .wrTotalHi _ | .rdCfg | .wrCfg _
  | .rdCap | .wrCap _ | .rdKey _ | .wrKey _ _ | .rdIv _ | .wrIv _ _ | .rdChain _ | .wrChain _ _ | .rdHash _
  | .wrHash _ _ => true

end Sys2Proof
end

