-- ==== Sys2Proof/Decode.lean ====
section
/-! DEFINITION. Decoding, total and rejecting by name, and the encoder after it (30_encoding R80 to R87, 10_state R22,
20_memory R63, R64). -/

namespace Sys2Proof

/-- Why an encoded form or an access is no instruction. -/
inductive Reject where
  /-- The access is not 32 bits wide (20_memory R63). -/
  | width
  /-- The offset is not a multiple of 4 (20_memory R63). -/
  | misaligned
  /-- No register stands at the offset (20_memory R64). -/
  | unmapped
  /-- The command word is not one of the ten legal words (30_encoding R87). -/
  | illegalCommand
  deriving DecidableEq, Repr

/-- `OPC`, `ARG` and `RSV` of a command word (30_encoding R81). -/
def cmdOpc (c : Word) : BitVec 8 := c.extractLsb' 0 8
/-- See `cmdOpc`. -/
def cmdArg (c : Word) : BitVec 3 := c.extractLsb' 8 3
/-- See `cmdOpc`. -/
def cmdRsv (c : Word) : BitVec 21 := c.extractLsb' 11 21

/-- An operation whose only legal `ARG` is 0 (30_encoding R84). -/
def argZero (arg : BitVec 3) (k : Command) : Except Reject Command :=
  if arg = 0 then .ok k else .error .illegalCommand

/-- The command a word selects: `RSV = 0`, `OPC` in the table and `ARG` legal for it (30_encoding R84, R87;
60_exceptions R304, its decode part). -/
def decodeCommand (c : Word) : Except Reject Command :=
  if cmdRsv c ≠ 0 then .error .illegalCommand
  else match (cmdOpc c).toNat with
    | 0x00 => argZero (cmdArg c) .nop
    | 0x01 => argZero (cmdArg c) .init
    | 0x02 =>
      match (cmdArg c).toNat with
      | 1 => .ok .append1
      | 2 => .ok .append2
      | 3 => .ok .append3
      | 4 => .ok .append4
      | _ => .error .illegalCommand
    | 0x03 => argZero (cmdArg c) .process
    | 0x04 => argZero (cmdArg c) .flush
    | 0x05 => argZero (cmdArg c) .finalize
    | 0x0F => argZero (cmdArg c) .sreset
    | _ => .error .illegalCommand

/-- The single registers of the map (10_state R22), offsets 0x000 to 0x034. -/
def singleRegAt : Nat → Option Reg
  | 0x000 => some .id
  | 0x004 => some .ctrl
  | 0x008 => some .status
  | 0x00C => some .errInfo
  | 0x010 => some .intEn
  | 0x014 => some .cmd
  | 0x018 => some .din
  | 0x01C => some .dout
  | 0x020 => some .bufBytes
  | 0x024 => some .outBytes
  | 0x028 => some .totalLo
  | 0x02C => some .totalHi
  | 0x030 => some .cfg
  | 0x034 => some .cap
  | _ => none

/-- The register array that covers an aligned offset, with the index field the opcode table gives it
(10_state R22). -/
def arrayRegAt (a : BitVec 10) : Option Reg :=
  let n := a.toNat
  if 0x040 ≤ n ∧ n < 0x060 then some (.key (a.extractLsb' 2 3).toFin)
  else if 0x060 ≤ n ∧ n < 0x070 then some (.iv (a.extractLsb' 2 2).toFin)
  else if 0x070 ≤ n ∧ n < 0x080 then some (.chain (a.extractLsb' 2 2).toFin)
  else if 0x080 ≤ n ∧ n < 0x0A0 then some (.hash (a.extractLsb' 2 3).toFin)
  else if 0x100 ≤ n ∧ n < 0x1F0 then some (.ks (a.extractLsb' 2 6).toFin)
  else if 0x200 ≤ n ∧ n < 0x2F0 then some (.iks (a.extractLsb' 2 6).toFin)
  else none

/-- The register at a byte offset, or why there is none (10_state R22, 20_memory R63, R64). -/
def regAt (a : BitVec 10) : Except Reject Reg :=
  if a.toNat % 4 ≠ 0 then .error .misaligned
  else match singleRegAt a.toNat with
    | some r => .ok r
    | none =>
      match arrayRegAt a with
      | some r => .ok r
      | none => .error .unmapped

/-- The row of the table that reads a register. -/
def Instr.ofRead : Reg → Instr
  | .id => .rdId
  | .ctrl => .rdCtrl
  | .status => .rdStatus
  | .errInfo => .rdErrInfo
  | .intEn => .rdIntEn
  | .cmd => .rdCmd
  | .din => .rdDin
  | .dout => .rdDout
  | .bufBytes => .rdBufBytes
  | .outBytes => .rdOutBytes
  | .totalLo => .rdTotalLo
  | .totalHi => .rdTotalHi
  | .cfg => .rdCfg
  | .cap => .rdCap
  | .key i => .rdKey i
  | .iv i => .rdIv i
  | .chain i => .rdChain i
  | .hash i => .rdHash i
  | .ks i => .rdKs i
  | .iks i => .rdIks i

/-- The row of the table that writes a register. -/
def Instr.ofWrite (v : Word) : Reg → Instr
  | .id => .wrId v
  | .ctrl => .wrCtrl v
  | .status => .wrStatus v
  | .errInfo => .wrErrInfo v
  | .intEn => .wrIntEn v
  | .cmd => .wrCmd v
  | .din => .wrDin v
  | .dout => .wrDout v
  | .bufBytes => .wrBufBytes v
  | .outBytes => .wrOutBytes v
  | .totalLo => .wrTotalLo v
  | .totalHi => .wrTotalHi v
  | .cfg => .wrCfg v
  | .cap => .wrCap v
  | .key i => .wrKey i v
  | .iv i => .wrIv i v
  | .chain i => .wrChain i v
  | .hash i => .wrHash i v
  | .ks i => .wrKs i v
  | .iks i => .wrIks i v

/-- The instruction an encoded form stands for. -/
def decode : Encoded → Except Reject Instr
  | .cmd c => (decodeCommand c).map Command.toInstr
  | .read a => (regAt a).map Instr.ofRead
  | .write a v => (regAt a).map (Instr.ofWrite v)

/-- The bus operation an access is: 32 bits wide, at bits [9:0] of its address (20_memory R63, R67). -/
def fetch (x : HostAccess) : Except Reject Encoded :=
  if x.width ≠ 32 then .error .width
  else if x.isWrite then .ok (.write (BitVec.ofNat 10 x.addr) x.data)
  else .ok (.read (BitVec.ofNat 10 x.addr))

/-- The instruction an access is, or why it gets `bus_error`. -/
def decodeAccess (x : HostAccess) : Except Reject Instr :=
  match fetch x with
  | .ok e => decode e
  | .error r => .error r

/-! The encoder, written from the same tables (30_encoding R84, 10_state R22). -/

/-- The offset of a register (10_state R22). -/
def Reg.offset : Reg → BitVec 10
  | .id => 0x000
  | .ctrl => 0x004
  | .status => 0x008
  | .errInfo => 0x00C
  | .intEn => 0x010
  | .cmd => 0x014
  | .din => 0x018
  | .dout => 0x01C
  | .bufBytes => 0x020
  | .outBytes => 0x024
  | .totalLo => 0x028
  | .totalHi => 0x02C
  | .cfg => 0x030
  | .cap => 0x034
  | .key i => BitVec.ofNat 10 (0x040 + 4 * i.val)
  | .iv i => BitVec.ofNat 10 (0x060 + 4 * i.val)
  | .chain i => BitVec.ofNat 10 (0x070 + 4 * i.val)
  | .hash i => BitVec.ofNat 10 (0x080 + 4 * i.val)
  | .ks i => BitVec.ofNat 10 (0x100 + 4 * i.val)
  | .iks i => BitVec.ofNat 10 (0x200 + 4 * i.val)

/-- The command word of a command (30_encoding R84). -/
def Command.word : Command → Word
  | .nop => 0x00000000
  | .init => 0x00000001
  | .append1 => 0x00000102
  | .append2 => 0x00000202
  | .append3 => 0x00000302
  | .append4 => 0x00000402
  | .process => 0x00000003
  | .flush => 0x00000004
  | .finalize => 0x00000005
  | .sreset => 0x0000000F

/-- The encoded form of an instruction. -/
def encode : Instr → Encoded
  | .nop => .cmd Command.nop.word
  | .init => .cmd Command.init.word
  | .append1 => .cmd Command.append1.word
  | .append2 => .cmd Command.append2.word
  | .append3 => .cmd Command.append3.word
  | .append4 => .cmd Command.append4.word
  | .process => .cmd Command.process.word
  | .flush => .cmd Command.flush.word
  | .finalize => .cmd Command.finalize.word
  | .sreset => .cmd Command.sreset.word
  | .rdId => .read Reg.id.offset
  | .wrId v => .write Reg.id.offset v
  | .rdCtrl => .read Reg.ctrl.offset
  | .wrCtrl v => .write Reg.ctrl.offset v
  | .rdStatus => .read Reg.status.offset
  | .wrStatus v => .write Reg.status.offset v
  | .rdErrInfo => .read Reg.errInfo.offset
  | .wrErrInfo v => .write Reg.errInfo.offset v
  | .rdIntEn => .read Reg.intEn.offset
  | .wrIntEn v => .write Reg.intEn.offset v
  | .rdCmd => .read Reg.cmd.offset
  | .wrCmd c => .write Reg.cmd.offset c
  | .rdDin => .read Reg.din.offset
  | .wrDin v => .write Reg.din.offset v
  | .rdDout => .read Reg.dout.offset
  | .wrDout v => .write Reg.dout.offset v
  | .rdBufBytes => .read Reg.bufBytes.offset
  | .wrBufBytes v => .write Reg.bufBytes.offset v
  | .rdOutBytes => .read Reg.outBytes.offset
  | .wrOutBytes v => .write Reg.outBytes.offset v
  | .rdTotalLo => .read Reg.totalLo.offset
  | .wrTotalLo v => .write Reg.totalLo.offset v
  | .rdTotalHi => .read Reg.totalHi.offset
  | .wrTotalHi v => .write Reg.totalHi.offset v
  | .rdCfg => .read Reg.cfg.offset
  | .wrCfg v => .write Reg.cfg.offset v
  | .rdCap => .read Reg.cap.offset
  | .wrCap v => .write Reg.cap.offset v
  | .rdKey i => .read (Reg.key i).offset
  | .wrKey i v => .write (Reg.key i).offset v
  | .rdIv i => .read (Reg.iv i).offset
  | .wrIv i v => .write (Reg.iv i).offset v
  | .rdChain i => .read (Reg.chain i).offset
  | .wrChain i v => .write (Reg.chain i).offset v
  | .rdHash i => .read (Reg.hash i).offset
  | .wrHash i v => .write (Reg.hash i).offset v
  | .rdKs i => .read (Reg.ks i).offset
  | .wrKs i v => .write (Reg.ks i).offset v
  | .rdIks i => .read (Reg.iks i).offset
  | .wrIks i v => .write (Reg.iks i).offset v

/-- The access that carries an encoded form: a command word is a write of `CMD` (30_encoding R80, R89). -/
def Encoded.toAccess : Encoded → HostAccess
  | .cmd c => { isWrite := true, addr := 0x014, width := 32, data := c }
  | .read a => { isWrite := false, addr := a.toNat, width := 32, data := 0 }
  | .write a v => { isWrite := true, addr := a.toNat, width := 32, data := v }

/-- The 11-bit key `W ‖ a[9:0]` of a bus operation (30_encoding R82); a command word has none. -/
def Encoded.busKey : Encoded → Option (BitVec 11)
  | .cmd _ => none
  | .read a => some ((0 : BitVec 1) ++ a)
  | .write a _ => some ((1 : BitVec 1) ++ a)

/-- The encoded form of a table word: a row of at most 16 bits is a BUS key (a write's value, which the table gives no
bits, is 0), a wider one a command word (assumption log 14). -/
def encodedOfTableWord (nbits w : Nat) : Option Encoded :=
  if nbits ≤ 16 then
    if w < 2 ^ 10 then some (.read (BitVec.ofNat 10 w))
    else if w < 2 ^ 11 then some (.write (BitVec.ofNat 10 w) 0)
    else none
  else if w < 2 ^ 32 then some (.cmd (BitVec.ofNat 32 w))
  else none

/-- The instruction the decoder reads from a word numbered as spec/opcode_table.json numbers it. -/
def decodeTableWord (nbits w : Nat) : Option Instr :=
  match encodedOfTableWord nbits w with
  | none => none
  | some e => (decode e).toOption

end Sys2Proof
end

