-- ==== Sys2Proof/Config.lean ====
section
/-! DEFINITION. What an implementation or a platform fixes (00_scope R6, 92_eei_decisions "Open parameters")
and the one free value of the model. -/

namespace Sys2Proof

/-- The two capacities a model takes as arguments (00_scope R6). They stand in State, fixed for a run, so that every
statement about all states is a statement about all capacities (assumption log 5). -/
structure Params where
  /-- `BUF_WORDS`: capacity of the input buffer in words. -/
  bufWords : Nat
  /-- `OUT_WORDS`: capacity of the output queue in words. -/
  outWords : Nat
  deriving DecidableEq, Repr

/-- The spec's default capacities (00_scope R6). -/
def Params.default : Params := { bufWords := 32, outWords := 64 }

/-- The constraints 00_scope R6 puts on the capacities. That both fit the 16-bit fields of `CAP` (00_scope R7) is
DEDUCED (assumption log 5). -/
abbrev Params.Legal (p : Params) : Prop :=
  16 ≤ p.bufWords ∧ p.bufWords % 16 = 0 ∧ p.bufWords + 4 ≤ p.outWords ∧ p.outWords < 2 ^ 16

/-- Free value: the number of key words `NK` for `CFG[9:8] = 3`, to which 10_state R24 gives no value. A hash or PASS
session may latch that field (41_session R132) and never reads `NK` (assumption log 9). -/
opaque Config.reservedKeyWords : Nat

/-- Platform parameter: which 1 KiB-aligned window of the host's space is CTS-BE's (assumption log 8). -/
opaque Config.ctsWindow : Nat

/-- `CTS_BASE`: the byte address of the window, a multiple of 0x400 (00_scope R6, 20_memory R67). -/
def Config.ctsBase : Nat := 0x400 * Config.ctsWindow

/-- `CTS_IRQ_LINE`: the platform interrupt line `IRQ` is wired to (00_scope R6, 60_exceptions R307). -/
opaque Config.ctsIrqLine : Nat

end Sys2Proof
end

