-- ==== Sys2Proof/Machine/State.lean ====
section
/-! DEFINITION. The state of CTS-BE as plain data (10_state R20), its reset value (70_reset_and_hazards R340), and the
reasons a step could stop. -/

namespace Sys2Proof.Machine

/-- `PHASE`, the session state machine (10_state R27). The encoding 3 never occurs (R26), so it has no constructor. -/
inductive Phase where
  | idle
  | active
  | done
  deriving DecidableEq, Repr

/-- What the bus answers to the last access (00_scope R11, 20_memory R63): the model's own output (assumption log 3). -/
inductive BusResponse where
  /-- No access has completed since reset. -/
  | idle
  /-- A write completed. -/
  | writeDone
  /-- A read completed with this value. -/
  | readData (v : Word)
  /-- The access got an error response (20_memory R63, R64). -/
  | busError
  deriving DecidableEq, Repr

/-- What reaches the block from outside, in order (00_scope R13, 70_reset_and_hazards R341). -/
inductive Input where
  /-- One bus access of the host. -/
  | access (a : HostAccess)
  /-- The platform asserts hardware reset (assumption log 7). -/
  | hardReset
  deriving DecidableEq, Repr

/-- Everything the spec gives the machine (10_state R20), the two capacities (00_scope R6), and the model's own input
stream and bus response. -/
structure State where
  /-- `BUF_WORDS` and `OUT_WORDS`; no step changes them. -/
  params : Params
  /-- `CTRL` (10_state R23). -/
  ctrl : Word
  /-- `CFG` (10_state R25). -/
  cfg : Word
  /-- `STATUS.PHASE` (10_state R27). -/
  phase : Phase
  /-- `STATUS.ERR` (60_exceptions R302). -/
  err : Bool
  /-- `STATUS.ERR_MULTI` (60_exceptions R305). -/
  errMulti : Bool
  /-- `STATUS.ERR_CODE` (60_exceptions R301). -/
  errCode : BitVec 4
  /-- `ERRINFO` (10_state R28). -/
  errInfo : Word
  /-- `STATUS.KEY_WR` (10_state R36). -/
  keyWr : BitVec 8
  /-- `STATUS.IV_WR` (10_state R37). -/
  ivWr : BitVec 4
  /-- `INT_EN` (10_state R29). -/
  intEn : Word
  /-- `DIN` (10_state R31). -/
  din : Word
  /-- `BUF`, earliest byte first (10_state R40). -/
  buf : List Byte
  /-- `OUT`, next byte to leave first (10_state R41). -/
  out : List Byte
  /-- `TOTAL` (10_state R34). -/
  total : BitVec 64
  /-- `KEY0..7` (10_state R36). -/
  key : Vector Word 8
  /-- `IV0..3` (10_state R37). -/
  iv : Vector Word 4
  /-- `CHAIN0..3` (10_state R38). -/
  chain : Vector Word 4
  /-- `HASH0..7` (10_state R39). -/
  hash : Vector Word 8
  /-- `KS0..59` (10_state R42). -/
  ks : Vector Word 60
  /-- `IKS0..59` (10_state R43). -/
  iks : Vector Word 60
  /-- The accesses and resets still to come, next first (assumption log 1). -/
  inputs : List Input
  /-- The bus's answer to the last access. -/
  resp : BusResponse
  deriving DecidableEq, Repr

/-- CTS-BE has no halt, lock-up or fault state (60_exceptions R300) and takes no trap (R308): an error is a captured
refusal of one command and a bus error an answer on the bus, both NEXT states. So nothing raises a fault, and the type
has no constructor (safe; assumption log 4). -/
inductive Fault where
  deriving DecidableEq, Repr

/-- Why a step would answer without a meaning. -/
inductive Refusal where
  /-- Raised by exec's arm for an instruction that has no meaning yet (safe). No arm raises it: every row has its
  meaning. -/
  | notModelled (mnemonic : String)
  deriving DecidableEq, Repr

/-- The machine right after reset with given capacities: every element at the value of 70_reset_and_hazards R340, and
nothing on the bus. -/
def State.resetWith (p : Params) : State where
  params := p
  ctrl := 0
  cfg := 0
  phase := .idle
  err := false
  errMulti := false
  errCode := 0
  errInfo := 0
  keyWr := 0
  ivWr := 0
  intEn := 0
  din := 0
  buf := []
  out := []
  total := 0
  key := Vector.replicate 8 0
  iv := Vector.replicate 4 0
  chain := Vector.replicate 4 0
  hash := Vector.replicate 8 0
  ks := Vector.replicate 60 0
  iks := Vector.replicate 60 0
  inputs := []
  resp := .idle

/-- The machine right after reset with the spec's default capacities (00_scope R6). -/
def State.reset : State := State.resetWith Params.default

end Sys2Proof.Machine
end

