-- ==== Sys2Proof/Machine/Operands.lean ====
section
/-! DEFINITION. The operand forms: word operators (00_scope R9), byte and word views (R10), the bytes APPEND takes,
and the values derived from a configuration word (10_state R23, R24). -/

namespace Sys2Proof.Machine

/-! ### Word operators (00_scope R9) -/

/-- `rotl32(x, n)` for `0 < n < 32`. -/
def rotl32 (x : Word) (n : Nat) : Word := (x <<< n) ||| (x >>> (32 - n))

/-- `rotr32(x, n) = rotl32(x, 32 - n)`. -/
def rotr32 (x : Word) (n : Nat) : Word := rotl32 x (32 - n)

/-- Byte `j` of a word, byte 0 the most significant (00_scope R8). -/
def byteOf (w : Word) (j : Nat) : Byte := w.extractLsb' (8 * (3 - j)) 8

/-- The word with these bytes, earliest in bits [31:24] (20_memory R60). -/
def wordOf (b0 b1 b2 b3 : Byte) : Word := b0 ++ b1 ++ b2 ++ b3

/-- `swap32(x)`: the four bytes reversed. -/
def swap32 (x : Word) : Word := wordOf (byteOf x 3) (byteOf x 2) (byteOf x 1) (byteOf x 0)

/-! ### Byte and word views (00_scope R10) -/

/-- The four bytes of a word in stream order. -/
def wordBytes (w : Word) : List Byte := [byteOf w 0, byteOf w 1, byteOf w 2, byteOf w 3]

/-- `B(ws)`, the byte view of a list of words. -/
def bytesOf (ws : List Word) : List Byte := ws.flatMap wordBytes

/-- `W(s)[k]`: a byte at or past the end reads 0. -/
def wordAt (s : List Byte) (k : Nat) : Word :=
  wordOf (s.getD (4 * k) 0) (s.getD (4 * k + 1) 0) (s.getD (4 * k + 2) 0) (s.getD (4 * k + 3) 0)

/-- `W(s)[0 .. n-1]`. -/
def wordsAt (s : List Byte) (n : Nat) : List Word := (List.range n).map (wordAt s)

/-- The 8 bytes of `L` most significant first (43_hash R183). -/
def be64 (l : BitVec 64) : List Byte := bytesOf [l.extractLsb' 32 32, l.extractLsb' 0 32]

/-- The 8 bytes of `L` least significant first (43_hash R183). -/
def le64 (l : BitVec 64) : List Byte := (be64 l).reverse

/-- The `n` most significant bytes of `DIN` (42_stream R150, 30_encoding R83). -/
def dinBytes (din : Word) (n : Nat) : List Byte := (wordBytes din).take n

/-- A fixed array from a list: word `i` of the list, 0 past its end. -/
def vectorOf (n : Nat) (l : List Word) : Vector Word n := Vector.ofFn fun i => l.getD i.val 0

/-! ### Fields of a configuration word (10_state R23) -/

/-- The per-block transform. -/
inductive Alg where
  | aes
  | sha256
  | md5
  | pass
  deriving DecidableEq, Repr

/-- `ALG` = [1:0]. -/
def algOf (c : Word) : Alg :=
  match (c.extractLsb' 0 2).toNat with
  | 0 => .aes
  | 1 => .sha256
  | 2 => .md5
  | _ => .pass

/-- `DIR` = [2]: 1 is decrypt. -/
def decrypting (c : Word) : Bool := c.getLsbD 2
/-- `MODE` = [3]: 1 is ECB. -/
def modeEcb (c : Word) : Bool := c.getLsbD 3
/-- `PAD` = [4]: 1 is NoPadding. -/
def noPadding (c : Word) : Bool := c.getLsbD 4
/-- `KSZ` = [9:8]. -/
def kszOf (c : Word) : BitVec 2 := c.extractLsb' 8 2
/-- `BLKW` = [20:16]. -/
def blkwOf (c : Word) : Nat := (c.extractLsb' 16 5).toNat

/-- The bits of `CTRL` that are stored (10_state R23, 40_host_access R102). -/
def ctrlMask : Word := 0x001F031F
/-- The bits of `INT_EN` that are stored (10_state R29, 40_host_access R106). -/
def intEnMask : Word := 0x7

/-! ### Derived configuration (10_state R24) -/

/-- `NK`: key words. `KSZ = 3` has no value in the spec: a free value (assumption log 9). -/
def keyWords (c : Word) : Nat :=
  match (kszOf c).toNat with
  | 0 => 8
  | 1 => 4
  | 2 => 6
  | _ => Config.reservedKeyWords

/-- `NR = NK + 6`. -/
def rounds (c : Word) : Nat := keyWords c + 6

/-- The native block size in words, selected by `BLKW = 0`. -/
def nativeBlockWords : Alg → Nat
  | .sha256 | .md5 => 16
  | .aes | .pass => 4

/-- `BW`: block size in words. -/
def blockWords (c : Word) : Nat := if blkwOf c ≠ 0 then blkwOf c else nativeBlockWords (algOf c)

/-- `BB = 4 * BW`: block size in bytes. -/
def blockBytes (c : Word) : Nat := 4 * blockWords c

/-- `MINBUF`: whole blocks kept back by a non-flush step. -/
def minBuf (c : Word) : Nat := if algOf c = .aes ∧ decrypting c = true then 1 else 0

/-- The algorithms whose processed bytes go to `OUT` (42_stream R152: `ALGc in {AES, PASS}`). -/
def Alg.outputs : Alg → Bool
  | .aes | .pass => true
  | .sha256 | .md5 => false

end Sys2Proof.Machine
end

