-- ==== Sys2Proof/Machine/Flags.lean ====
section
/-! DEFINITION. The status bits: error codes (60_exceptions R301), the interrupt level (R307), and `STATUS` assembled
from its fields (10_state R26). CTS-BE has no arithmetic flags (10_state R46). -/

namespace Sys2Proof.Machine

/-- The seven errors (60_exceptions R301). -/
inductive ErrCode where
  | illegalCmd
  | config
  | sequence
  | bufOverflow
  | outOverflow
  | partialBlock
  | outUnderflow
  deriving DecidableEq, Repr

/-- The value an error puts in `STATUS.ERR_CODE` (60_exceptions R301). -/
def ErrCode.code : ErrCode → BitVec 4
  | .illegalCmd => 1
  | .config => 2
  | .sequence => 3
  | .bufOverflow => 4
  | .outOverflow => 5
  | .partialBlock => 6
  | .outUnderflow => 7

/-- The encoding of `PHASE` in `STATUS[1:0]` (10_state R26). -/
def Phase.bits : Phase → BitVec 2
  | .idle => 0
  | .active => 1
  | .done => 2

/-- `STATUS.OUT_NE`: 1 when `|OUT| > 0` (10_state R26). -/
def outNe (s : State) : Bool := decide (0 < s.out.length)

/-- The level of the interrupt output (60_exceptions R307): `ERR_IE`, `DONE_IE`, `OUT_IE` are bits 0, 1, 2 of
`INT_EN`. -/
def irq (s : State) : Bool :=
  (s.err && s.intEn.getLsbD 0) || (decide (s.phase = .done) && s.intEn.getLsbD 1) || (outNe s && s.intEn.getLsbD 2)

/-- The level CTS-BE drives on a platform interrupt line: `IRQ` on `CTS_IRQ_LINE` (00_scope R6). -/
def irqLineLevel (s : State) (line : Nat) : Bool := decide (line = Config.ctsIrqLine) && irq s

/-- `STATUS` as a read assembles it, bit 31 first (10_state R26): reserved, `IRQ`, `OUT_NE`, `IV_WR`, `KEY_WR`,
`ERR_CODE`, `ERR_MULTI`, `ERR`, `PHASE`. -/
def statusWord (s : State) : Word :=
  (0 : BitVec 10) ++ BitVec.ofBool (irq s) ++ BitVec.ofBool (outNe s) ++ s.ivWr ++ s.keyWr ++ s.errCode
    ++ BitVec.ofBool s.errMulti ++ BitVec.ofBool s.err ++ s.phase.bits

/-- `KEY_WR` or `IV_WR` with bit `i` set (10_state R36, R37). -/
def markWritten {n : Nat} (mask : BitVec n) (i : Nat) : BitVec n := mask ||| BitVec.twoPow n i

end Sys2Proof.Machine
end

