-- ==== Sys2Proof/Machine/Ops.lean ====
section
/-! DEFINITION. The named operations over the state: the bus response, error capture and its clearing (the machine's
exception entry and return), and the register writes. -/

namespace Sys2Proof.Machine

/-- The outcome type of every meaning. -/
abbrev Result := Host.Outcome State Fault Refusal

/-! ### The bus -/

/-- The access completes with this answer. -/
def State.respond (s : State) (r : BusResponse) : State := { s with resp := r }

/-- A read that returns `v` and changes nothing else (40_host_access R100, R109). -/
def readValue (v : Word) (s : State) : Result := .next (s.respond (.readData v))

/-- A write that completes leaving `s` (40_host_access R101). -/
def writeTo (s : State) : Result := .next (s.respond .writeDone)

/-- The access gets an error response and changes no state of CTS-BE (20_memory R63, R64). -/
def busError (s : State) : Result := .next (s.respond .busError)

/-! ### Errors: capture and clearing (the trap entry and return of 60_exceptions R308) -/

/-- Error capture (60_exceptions R302): the first error is kept, a further one sets `ERR_MULTI`. -/
def State.raise (s : State) (e : ErrCode) (info : Word) : State :=
  if s.err = false then { s with err := true, errCode := e.code, errInfo := info }
  else { s with errMulti := true }

/-- Clearing the capture (60_exceptions R306). -/
def State.clearError (s : State) : State :=
  { s with err := false, errMulti := false, errCode := 0, errInfo := 0 }

/-- How a command word ends: with its effect, or refused with exactly one error and no other effect
(60_exceptions R303). Either way the write of `CMD` that carried it completes (R300). -/
def endCommand (c : Word) (s : State) : Except ErrCode State → Result
  | .ok t => writeTo t
  | .error e => writeTo (s.raise e c)

/-! ### Register writes (40_host_access R102 to R107) -/

/-- `CTRL <- v & 0x001F031F`. -/
def State.setCtrl (s : State) (v : Word) : State := { s with ctrl := v &&& ctrlMask }

/-- `INT_EN <- v & 0x7`. -/
def State.setIntEn (s : State) (v : Word) : State := { s with intEn := v &&& intEnMask }

/-- `DIN <- v`. -/
def State.setDin (s : State) (v : Word) : State := { s with din := v }

/-- `KEYi <- v; STATUS.KEY_WR[i] <- 1`. -/
def State.setKey (s : State) (i : Fin 8) (v : Word) : State :=
  { s with key := s.key.set i v, keyWr := markWritten s.keyWr i }

/-- `IVi <- v; STATUS.IV_WR[i] <- 1`. -/
def State.setIv (s : State) (i : Fin 4) (v : Word) : State :=
  { s with iv := s.iv.set i v, ivWr := markWritten s.ivWr i }

/-- Every state element of the block at its reset value (70_reset_and_hazards R340); the capacities are constants of
the block, and the input stream and the bus are outside it. -/
def State.toReset (s : State) : State :=
  { State.resetWith s.params with inputs := s.inputs, resp := s.resp }

/-- The next session phase (10_state R27). -/
def State.setPhase (s : State) (p : Phase) : State := { s with phase := p }

end Sys2Proof.Machine
end

