-- ==== Sys2Proof/Machine/HostRead.lean ====
section
/-! DEFINITION. Host reads of the registers (40_host_access R100, R104, R109). -/

namespace Sys2Proof.Machine

/-- `ID` (10_state R35). -/
def idValue : Word := 0x43545301

/-- `CAP` = `(OUT_WORDS << 16) | BUF_WORDS` (00_scope R7, 10_state R35). -/
def capValue (p : Params) : Word := (BitVec.ofNat 32 p.outWords <<< 16) ||| BitVec.ofNat 32 p.bufWords

/-- The content of a register as a read sees it (10_state R22, 40_host_access R100). `DOUT` shows the front of
`OUT`, bytes past its end reading 0 (R104). -/
def regValue (s : State) : Reg → Word
  | .id => idValue
  | .ctrl => s.ctrl
  | .status => statusWord s
  | .errInfo => s.errInfo
  | .intEn => s.intEn
  | .cmd => 0
  | .din => s.din
  | .dout => wordAt s.out 0
  | .bufBytes => BitVec.ofNat 32 s.buf.length
  | .outBytes => BitVec.ofNat 32 s.out.length
  | .totalLo => s.total.extractLsb' 0 32
  | .totalHi => s.total.extractLsb' 32 32
  | .cfg => s.cfg
  | .cap => capValue s.params
  | .key i => s.key[i]
  | .iv i => s.iv[i]
  | .chain i => s.chain[i]
  | .hash i => s.hash[i]
  | .ks i => s.ks.getD i 0
  | .iks i => s.iks.getD i 0

/-- A read of a mapped register without side effect; an unmapped index of a schedule gets `bus_error`
(40_host_access R100, 20_memory R64). -/
def readReg (r : Reg) (s : State) : Result :=
  if r.mapped = true then readValue (regValue s r) s else busError s

/-- What `ERRINFO` records for a `DOUT` underflow (10_state R28). -/
def doutMarker : Word := 0x8000001C

/-- RD_ID (40_host_access R100). -/
def execRdId (s : State) : Result := readReg .id s
/-- RD_CTRL (R100). -/
def execRdCtrl (s : State) : Result := readReg .ctrl s
/-- RD_STATUS (R100). -/
def execRdStatus (s : State) : Result := readReg .status s
/-- RD_ERRINFO (R100). -/
def execRdErrInfo (s : State) : Result := readReg .errInfo s
/-- RD_INT_EN (R100). -/
def execRdIntEn (s : State) : Result := readReg .intEn s
/-- RD_CMD (R100; 20_memory R65: reads 0). -/
def execRdCmd (s : State) : Result := readReg .cmd s
/-- RD_DIN (R100). -/
def execRdDin (s : State) : Result := readReg .din s

/-- RD_DOUT (40_host_access R104): an empty `OUT` returns 0 and raises `ERR_OUT_UNDERFLOW`; else up to four bytes
leave. -/
def execRdDout (s : State) : Result :=
  if s.out.length = 0 then readValue 0 (s.raise .outUnderflow doutMarker)
  else readValue (wordAt s.out 0) { s with out := s.out.drop (min 4 s.out.length) }

/-- RD_BUF_BYTES (R100). -/
def execRdBufBytes (s : State) : Result := readReg .bufBytes s
/-- RD_OUT_BYTES (R100). -/
def execRdOutBytes (s : State) : Result := readReg .outBytes s
/-- RD_TOTAL_LO (R100). -/
def execRdTotalLo (s : State) : Result := readReg .totalLo s
/-- RD_TOTAL_HI (R100). -/
def execRdTotalHi (s : State) : Result := readReg .totalHi s
/-- RD_CFG (R100). -/
def execRdCfg (s : State) : Result := readReg .cfg s
/-- RD_CAP (R100). -/
def execRdCap (s : State) : Result := readReg .cap s
/-- RD_KEYi (R100). -/
def execRdKey (i : Fin 8) (s : State) : Result := readReg (.key i) s
/-- RD_IVi (R100). -/
def execRdIv (i : Fin 4) (s : State) : Result := readReg (.iv i) s
/-- RD_CHAINi (R100). -/
def execRdChain (i : Fin 4) (s : State) : Result := readReg (.chain i) s
/-- RD_HASHi (R100). -/
def execRdHash (i : Fin 8) (s : State) : Result := readReg (.hash i) s
/-- RD_KSi (R100; i = 60..63 is `bus_error`). -/
def execRdKs (i : Fin 64) (s : State) : Result := readReg (.ks i) s
/-- RD_IKSi (R100; i = 60..63 is `bus_error`). -/
def execRdIks (i : Fin 64) (s : State) : Result := readReg (.iks i) s

end Sys2Proof.Machine
end

