-- ==== Sys2Proof/Machine/Aes.lean ====
section
/-! DEFINITION. The AES substitution-permutation network and key schedule expansion (45_aes R250 to R264). -/

namespace Sys2Proof.Machine

/-! ### Field arithmetic (45_aes R250) -/

/-- `xtime(a) = (a << 1) ⊕ (0x11B if a[7] = 1 else 0)`. -/
def xtime (a : Byte) : Byte :=
  ((a.setWidth 9 <<< 1) ^^^ (if a.getLsbD 7 = true then 0x11B else 0)).setWidth 8

/-- The sum of `xtime^i(a)` over the set bits `i < n` of `b`. -/
def gmulBits : Nat → Byte → Byte → Byte
  | 0, _, _ => 0
  | n + 1, a, b => (if b.getLsbD 0 = true then a else 0) ^^^ gmulBits n (xtime a) (b >>> 1)

/-- `gmul(a, b)`, the product in GF(2^8). -/
def gmul (a b : Byte) : Byte := gmulBits 8 a b

/-! ### S-boxes (45_aes R251, R252): row `r` holds the sixteen bytes of `16r` to `16r + 15`, column 0 leftmost. -/

def sboxRows : List Nat :=
  [0x637c777bf26b6fc53001672bfed7ab76, 0xca82c97dfa5947f0add4a2af9ca472c0,
   0xb7fd9326363ff7cc34a5e5f171d83115, 0x04c723c31896059a071280e2eb27b275,
   0x09832c1a1b6e5aa0523bd6b329e32f84, 0x53d100ed20fcb15b6acbbe394a4c58cf,
   0xd0efaafb434d338545f9027f503c9fa8, 0x51a3408f929d38f5bcb6da2110fff3d2,
   0xcd0c13ec5f974417c4a77e3d645d1973, 0x60814fdc222a908846eeb814de5e0bdb,
   0xe0323a0a4906245cc2d3ac629195e479, 0xe7c8376d8dd54ea96c56f4ea657aae08,
   0xba78252e1ca6b4c6e8dd741f4bbd8b8a, 0x703eb5664803f60e613557b986c11d9e,
   0xe1f8981169d98e949b1e87e9ce5528df, 0x8ca1890dbfe6426841992d0fb054bb16]

def invSboxRows : List Nat :=
  [0x52096ad53036a538bf40a39e81f3d7fb, 0x7ce339829b2fff87348e4344c4dee9cb,
   0x547b9432a6c2233dee4c950b42fac34e, 0x082ea16628d924b2765ba2496d8bd125,
   0x72f8f66486689816d4a45ccc5d65b692, 0x6c704850fdedb9da5e154657a78d9d84,
   0x90d8ab008cbcd30af7e45805b8b34506, 0xd02c1e8fca3f0f02c1afbd0301138a6b,
   0x3a9111414f67dcea97f2cfcef0b4e673, 0x96ac7422e7ad3585e2f937e81c75df6e,
   0x47f11a711d29c5896fb7620eaa18be1b, 0xfc563e4bc6d279209adbc0fe78cd5af4,
   0x1fdda8338807c731b11210592780ec5f, 0x60517fa919b54a0d2de57a9f93c99cef,
   0xa0e03b4dae2af5b0c8ebbb3c83539961, 0x172b047eba77d626e169146355210c7d]

/-- The entry for byte `x` of a table given by rows. -/
def boxAt (rows : List Nat) (x : Byte) : Byte :=
  BitVec.ofNat 8 (rows.getD (x.toNat / 16) 0 >>> (8 * (15 - x.toNat % 16)))

/-- `SBOX[x]`. -/
def sbox (x : Byte) : Byte := boxAt sboxRows x
/-- `INV_SBOX[x]`. -/
def invSbox (x : Byte) : Byte := boxAt invSboxRows x

/-! ### Fused tables (45_aes R253, R254) -/

/-- `SUB_MIX_0[x]`: the bytes 2·s, s, s, 3·s for `s = SBOX[x]`. -/
def subMix0 (x : Byte) : Word :=
  let s := sbox x
  wordOf (xtime s) s s (xtime s ^^^ s)

/-- `INV_SUB_MIX_0[x]`: the bytes 0e·y, 09·y, 0d·y, 0b·y for `y = INV_SBOX[x]`. -/
def invSubMix0 (x : Byte) : Word :=
  let y := invSbox x
  wordOf (gmul y 0x0e) (gmul y 0x09) (gmul y 0x0d) (gmul y 0x0b)

/-- `rotr32(t, 8k)`, with `k = 0` leaving `t` as it is (45_aes R253). -/
def rotBytes (t : Word) (k : Nat) : Word := if k = 0 then t else rotr32 t (8 * k)

/-- `SUB_MIX_k[x]`. -/
def subMix (k : Nat) (x : Byte) : Word := rotBytes (subMix0 x) k
/-- `INV_SUB_MIX_k[x]`. -/
def invSubMix (k : Nat) (x : Byte) : Word := rotBytes (invSubMix0 x) k

/-- `IMC(t)`, InvMixColumns of one column (45_aes R254). -/
def imc (t : Word) : Word :=
  invSubMix 0 (sbox (byteOf t 0)) ^^^ invSubMix 1 (sbox (byteOf t 1)) ^^^ invSubMix 2 (sbox (byteOf t 2))
    ^^^ invSubMix 3 (sbox (byteOf t 3))

/-! ### Key schedule (45_aes R255, R256, R260, R261) -/

/-- `RCON[0..10]`. -/
def rcon : List Byte := [0x00, 0x01, 0x02, 0x04, 0x08, 0x10, 0x20, 0x40, 0x80, 0x1b, 0x36]

/-- `RotWord(t) = rotl32(t, 8)`. -/
def rotWord (t : Word) : Word := rotl32 t 8

/-- `SubWord(t)`. -/
def subWord (t : Word) : Word :=
  wordOf (sbox (byteOf t 0)) (sbox (byteOf t 1)) (sbox (byteOf t 2)) (sbox (byteOf t 3))

/-- What row `r >= NK` XORs into row `r - NK`, from the row before (45_aes R260). -/
def keyMix (nk r : Nat) (t : Word) : Word :=
  if r % nk = 0 then subWord (rotWord t) ^^^ wordOf (rcon.getD (r / nk) 0) 0 0 0
  else if 6 < nk ∧ r % nk = 4 then subWord t
  else t

/-- `n` more rows after `rows`, whose length is the next index `r` (45_aes R260). -/
def keyRows (nk : Nat) : Nat → List Word → List Word
  | 0, rows => rows
  | n + 1, rows =>
    let r := rows.length
    keyRows nk n (rows ++ [rows.getD (r - nk) 0 ^^^ keyMix nk r (rows.getD (r - 1) 0)])

/-- `ROWS = 4 * (NR + 1)` for `NK` key words. -/
def rowsFor (nk : Nat) : Nat := 4 * (nk + 6 + 1)

/-- `KEY_EXPAND(key[0 .. NK-1])`: the rows of the forward schedule (45_aes R260). -/
def keyExpand (nk : Nat) (key : List Word) : List Word := keyRows nk (rowsFor nk - nk) (key.take nk)

/-- Row `i` of the inverse schedule of a forward schedule of `ROWS` rows (45_aes R261). -/
def invRow (rows : Nat) (ks : List Word) (i : Nat) : Word :=
  let r := rows - i
  let t := if i % 4 ≠ 0 then ks.getD r 0 else ks.getD (r - 4) 0
  if i < 4 ∨ r ≤ 4 then t else imc t

/-- `INV_EXPAND()`: the rows of the inverse schedule (45_aes R261). -/
def invExpand (rows : Nat) (ks : List Word) : List Word := (List.range rows).map (invRow rows ks)

/-! ### The round datapath (45_aes R262 to R264) -/

/-- The AES state, four words; also a cipher block. -/
structure Block4 where
  w0 : Word
  w1 : Word
  w2 : Word
  w3 : Word
  deriving DecidableEq, Repr

/-- Bitwise XOR of two blocks. -/
def Block4.xor (x y : Block4) : Block4 :=
  { w0 := x.w0 ^^^ y.w0, w1 := x.w1 ^^^ y.w1, w2 := x.w2 ^^^ y.w2, w3 := x.w3 ^^^ y.w3 }

/-- The words of a block in order. -/
def Block4.words (x : Block4) : List Word := [x.w0, x.w1, x.w2, x.w3]

/-- The first four words of a list, 0 past its end. -/
def Block4.ofWords (l : List Word) : Block4 :=
  { w0 := l.getD 0 0, w1 := l.getD 1 0, w2 := l.getD 2 0, w3 := l.getD 3 0 }

/-- Words 1 and 3 exchanged (45_aes R264). -/
def Block4.swap13 (x : Block4) : Block4 := { w0 := x.w0, w1 := x.w3, w2 := x.w2, w3 := x.w1 }

/-- Schedule words `K[k .. k+3]`. -/
def schedAt (k : Vector Word 60) (i : Nat) : Block4 :=
  { w0 := k.getD i 0, w1 := k.getD (i + 1) 0, w2 := k.getD (i + 2) 0, w3 := k.getD (i + 3) 0 }

/-- One column of a fused round: a byte of each of four words, through the four tables. -/
def mixColumn (t : Nat → Byte → Word) (a b c d : Word) : Word :=
  t 0 (byteOf a 0) ^^^ t 1 (byteOf b 1) ^^^ t 2 (byteOf c 2) ^^^ t 3 (byteOf d 3)

/-- One fused round before its round key (45_aes R262). -/
def fusedRound (t : Nat → Byte → Word) (s : Block4) : Block4 :=
  { w0 := mixColumn t s.w0 s.w1 s.w2 s.w3, w1 := mixColumn t s.w1 s.w2 s.w3 s.w0,
    w2 := mixColumn t s.w2 s.w3 s.w0 s.w1, w3 := mixColumn t s.w3 s.w0 s.w1 s.w2 }

/-- `FIN(a, b, c, d)` (45_aes R262). -/
def finWord (box : Byte → Byte) (a b c d : Word) : Word :=
  wordOf (box (byteOf a 0)) (box (byteOf b 1)) (box (byteOf c 2)) (box (byteOf d 3))

/-- The final round before its round key (45_aes R262). -/
def finalRound (box : Byte → Byte) (s : Block4) : Block4 :=
  { w0 := finWord box s.w0 s.w1 s.w2 s.w3, w1 := finWord box s.w1 s.w2 s.w3 s.w0,
    w2 := finWord box s.w2 s.w3 s.w0 s.w1, w3 := finWord box s.w3 s.w0 s.w1 s.w2 }

/-- `n` fused rounds, the first with the schedule words from `k` on. -/
def fusedRounds (t : Nat → Byte → Word) (ks : Vector Word 60) : Nat → Nat → Block4 → Block4
  | 0, _, s => s
  | n + 1, k, s => fusedRounds t ks n (k + 4) ((fusedRound t s).xor (schedAt ks k))

/-- `CRYPT(s, K, T, BOX)` with `NR` rounds (45_aes R262). -/
def crypt (nr : Nat) (ks : Vector Word 60) (t : Nat → Byte → Word) (box : Byte → Byte) (s : Block4) : Block4 :=
  (finalRound box (fusedRounds t ks (nr - 1) 4 (s.xor (schedAt ks 0)))).xor (schedAt ks (4 * nr))

/-- `AES_ENC(p)` (45_aes R263). -/
def aesEnc (nr : Nat) (ks : Vector Word 60) (p : Block4) : Block4 := crypt nr ks subMix sbox p

/-- `AES_DEC(q)` (45_aes R264). -/
def aesDec (nr : Nat) (iks : Vector Word 60) (q : Block4) : Block4 := (crypt nr iks invSubMix invSbox q.swap13).swap13

end Sys2Proof.Machine
end

