-- ==== Sys2Proof/Machine/Cipher.lean ====
section
/-! DEFINITION. Chaining modes and padding of a block cipher session (44_cipher R223 to R228). -/

namespace Sys2Proof.Machine

/-- The block a four-word register array holds. -/
def Block4.ofVector (v : Vector Word 4) : Block4 := { w0 := v[0], w1 := v[1], w2 := v[2], w3 := v[3] }

/-- The four-word register array that holds a block. -/
def Block4.toVector (x : Block4) : Vector Word 4 := #v[x.w0, x.w1, x.w2, x.w3]

/-- What a session's transform reads and no block changes: the latched configuration and the two schedules. -/
structure Ctx where
  cfg : Word
  ks : Vector Word 60
  iks : Vector Word 60
  deriving DecidableEq, Repr

/-- The context of the present session. -/
def State.ctx (s : State) : Ctx := { cfg := s.cfg, ks := s.ks, iks := s.iks }

/-- A block's output and the chain value it leaves. -/
structure Chained where
  output : Block4
  chain : Block4
  deriving DecidableEq, Repr

/-- `CBC_ENC(p)` (44_cipher R225). -/
def cbcEnc (c : Ctx) (chain p : Block4) : Chained :=
  let o := aesEnc (rounds c.cfg) c.ks (p.xor chain)
  { output := o, chain := o }

/-- `CBC_DEC(q)` (44_cipher R226): the chain becomes the ciphertext block as it was before decryption. -/
def cbcDec (c : Ctx) (chain q : Block4) : Chained :=
  { output := (aesDec (rounds c.cfg) c.iks q).xor chain, chain := q }

/-- `CIPHER_BLOCK(blk)`: `MODE` and `DIR` select (44_cipher R228); ECB never touches the chain (R227). -/
def cipherBlock (c : Ctx) (chain blk : Block4) : Chained :=
  match modeEcb c.cfg, decrypting c.cfg with
  | false, false => cbcEnc c chain blk
  | false, true => cbcDec c chain blk
  | true, false => { output := aesEnc (rounds c.cfg) c.ks blk, chain := chain }
  | true, true => { output := aesDec (rounds c.cfg) c.iks blk, chain := chain }

/-- `PKCS7_PAD(X)` for 16-byte blocks (44_cipher R223). -/
def pkcs7Pad (x : List Byte) : List Byte :=
  let p := 16 - x.length % 16
  x ++ List.replicate p (BitVec.ofNat 8 p)

/-- `PKCS7_UNPAD(C)` (44_cipher R224): the last byte counts; it is never checked, and clamped to the length. -/
def pkcs7Unpad (c : List Byte) : List Byte :=
  match c.getLast? with
  | none => c
  | some n => c.take (c.length - min n.toNat c.length)

end Sys2Proof.Machine
end

