-- ==== Sys2Proof/Machine/Md5.lean ====
section
/-! DEFINITION. The MD5 compression pipeline (43_hash R200 to R204). `H[4..7]` of the hash state are no part of it. -/

namespace Sys2Proof.Machine

/-- What INIT loads: `MD5_H0[0..3]`, and 0 in `H[4..7]` (43_hash R200, 41_session R131). -/
def md5Init : Vector Word 8 := #v[0x67452301, 0xefcdab89, 0x98badcfe, 0x10325476, 0, 0, 0, 0]

/-- The additive constants `T[0..63]`, one row of eight a line (43_hash R204). -/
def md5T : List Word :=
  [0xd76aa478, 0xe8c7b756, 0x242070db, 0xc1bdceee, 0xf57c0faf, 0x4787c62a, 0xa8304613, 0xfd469501] ++
  [0x698098d8, 0x8b44f7af, 0xffff5bb1, 0x895cd7be, 0x6b901122, 0xfd987193, 0xa679438e, 0x49b40821] ++
  [0xf61e2562, 0xc040b340, 0x265e5a51, 0xe9b6c7aa, 0xd62f105d, 0x02441453, 0xd8a1e681, 0xe7d3fbc8] ++
  [0x21e1cde6, 0xc33707d6, 0xf4d50d87, 0x455a14ed, 0xa9e3e905, 0xfcefa3f8, 0x676f02d9, 0x8d2a4c8a] ++
  [0xfffa3942, 0x8771f681, 0x6d9d6122, 0xfde5380c, 0xa4beea44, 0x4bdecfa9, 0xf6bb4b60, 0xbebfbc70] ++
  [0x289b7ec6, 0xeaa127fa, 0xd4ef3085, 0x04881d05, 0xd9d4d039, 0xe6db99e5, 0x1fa27cf8, 0xc4ac5665] ++
  [0xf4292244, 0x432aff97, 0xab9423a7, 0xfc93a039, 0x655b59c3, 0x8f0ccc92, 0xffeff47d, 0x85845dd1] ++
  [0x6fa87e4f, 0xfe2ce6e0, 0xa3014314, 0x4e0811a1, 0xf7537e82, 0xbd3af235, 0x2ad7d2bb, 0xeb86d391]

/-- The rotate amounts `S[i]`: four a round of 16 steps, repeating (43_hash R203). -/
def md5S (i : Nat) : Nat :=
  match i / 16 with
  | 0 => [7, 12, 17, 22].getD (i % 4) 0
  | 1 => [5, 9, 14, 20].getD (i % 4) 0
  | 2 => [4, 11, 16, 23].getD (i % 4) 0
  | _ => [6, 10, 15, 21].getD (i % 4) 0

/-- The message-word order `IDX(i)` (43_hash R203). -/
def md5Idx (i : Nat) : Nat :=
  match i / 16 with
  | 0 => i
  | 1 => (1 + 5 * i) % 16
  | 2 => (5 + 3 * i) % 16
  | _ => (7 * i) % 16

/-- The round function `FN_i`: F, G, H, I for the four sixteens of steps (43_hash R202). -/
def md5Fn (i : Nat) (b c d : Word) : Word :=
  match i / 16 with
  | 0 => (b &&& c) ||| (~~~b &&& d)
  | 1 => (b &&& d) ||| (c &&& ~~~d)
  | 2 => b ^^^ c ^^^ d
  | _ => c ^^^ (b ||| ~~~d)

/-- The four state words while a block is compressed. -/
structure Md5Vars where
  a : Word
  b : Word
  c : Word
  d : Word
  deriving DecidableEq, Repr

/-- Step `i` over the little-endian message words `x` (43_hash R201). -/
def md5Step (x : List Word) (i : Nat) (v : Md5Vars) : Md5Vars :=
  let n := v.a + md5Fn i v.b v.c v.d + x.getD (md5Idx i) 0 + md5T.getD i 0
  { a := v.d, b := v.b + rotl32 n (md5S i), c := v.b, d := v.c }

/-- `n` steps from step `i` on. -/
def md5Steps (x : List Word) : Nat → Nat → Md5Vars → Md5Vars
  | 0, _, v => v
  | n + 1, i, v => md5Steps x n (i + 1) (md5Step x i v)

/-- `H[0..3] <- MD5_COMPRESS(H[0..3], M[0..15])`; `H[4..7]` stay (43_hash R201, 10_state R39). -/
def md5Compress (h : Vector Word 8) (m : List Word) : Vector Word 8 :=
  let x := (List.range 16).map fun j => swap32 (m.getD j 0)
  let v := md5Steps x 64 0 { a := h[0], b := h[1], c := h[2], d := h[3] }
  #v[h[0] + v.a, h[1] + v.b, h[2] + v.c, h[3] + v.d, h[4], h[5], h[6], h[7]]

/-- The MD5 digest swap of `H[0..3]` in place (43_hash R182). -/
def md5SwapDigest (h : Vector Word 8) : Vector Word 8 :=
  #v[swap32 h[0], swap32 h[1], swap32 h[2], swap32 h[3], h[4], h[5], h[6], h[7]]

end Sys2Proof.Machine
end

