-- ==== Sys2Proof/Machine/Sha256.lean ====
section
/-! DEFINITION. The SHA-256 compression pipeline (43_hash R190 to R193). -/

namespace Sys2Proof.Machine

/-- Initial values `SHA256_H0[0..7]` (43_hash R190). -/
def sha256Init : Vector Word 8 :=
  #v[0x6a09e667, 0xbb67ae85, 0x3c6ef372, 0xa54ff53a, 0x510e527f, 0x9b05688c, 0x1f83d9ab, 0x5be0cd19]

/-- Round constants `K[0..63]`, one row of eight a line (43_hash R193). -/
def sha256K : List Word :=
  [0x428a2f98, 0x71374491, 0xb5c0fbcf, 0xe9b5dba5, 0x3956c25b, 0x59f111f1, 0x923f82a4, 0xab1c5ed5] ++
  [0xd807aa98, 0x12835b01, 0x243185be, 0x550c7dc3, 0x72be5d74, 0x80deb1fe, 0x9bdc06a7, 0xc19bf174] ++
  [0xe49b69c1, 0xefbe4786, 0x0fc19dc6, 0x240ca1cc, 0x2de92c6f, 0x4a7484aa, 0x5cb0a9dc, 0x76f988da] ++
  [0x983e5152, 0xa831c66d, 0xb00327c8, 0xbf597fc7, 0xc6e00bf3, 0xd5a79147, 0x06ca6351, 0x14292967] ++
  [0x27b70a85, 0x2e1b2138, 0x4d2c6dfc, 0x53380d13, 0x650a7354, 0x766a0abb, 0x81c2c92e, 0x92722c85] ++
  [0xa2bfe8a1, 0xa81a664b, 0xc24b8b70, 0xc76c51a3, 0xd192e819, 0xd6990624, 0xf40e3585, 0x106aa070] ++
  [0x19a4c116, 0x1e376c08, 0x2748774c, 0x34b0bcb5, 0x391c0cb3, 0x4ed8aa4a, 0x5b9cca4f, 0x682e6ff3] ++
  [0x748f82ee, 0x78a5636f, 0x84c87814, 0x8cc70208, 0x90befffa, 0xa4506ceb, 0xbef9a3f7, 0xc67178f2]

/-! ### The functions of 43_hash R192 -/

def shaCh (x y z : Word) : Word := (x &&& y) ^^^ (~~~x &&& z)
def shaMaj (x y z : Word) : Word := (x &&& y) ^^^ (x &&& z) ^^^ (y &&& z)
def shaBigSigma0 (x : Word) : Word := rotr32 x 2 ^^^ rotr32 x 13 ^^^ rotr32 x 22
def shaBigSigma1 (x : Word) : Word := rotr32 x 6 ^^^ rotr32 x 11 ^^^ rotr32 x 25
def shaGamma0 (x : Word) : Word := rotr32 x 7 ^^^ rotr32 x 18 ^^^ (x >>> 3)
def shaGamma1 (x : Word) : Word := rotr32 x 17 ^^^ rotr32 x 19 ^^^ (x >>> 10)

/-- `n` more schedule words after `w`, whose length is the next index `t`: `W[t] = γ1(W[t-2]) + W[t-7] + γ0(W[t-15]) +
W[t-16]` (43_hash R191). -/
def sha256Extend : Nat → List Word → List Word
  | 0, w => w
  | n + 1, w =>
    let t := w.length
    sha256Extend n
      (w ++ [shaGamma1 (w.getD (t - 2) 0) + w.getD (t - 7) 0 + shaGamma0 (w.getD (t - 15) 0) + w.getD (t - 16) 0])

/-- The message schedule `W[0..63]` of a block `M[0..15]` (43_hash R191). -/
def sha256Schedule (m : List Word) : List Word :=
  sha256Extend 48 ((List.range 16).map fun t => m.getD t 0)

/-- The working variables of the compression. -/
structure ShaVars where
  a : Word
  b : Word
  c : Word
  d : Word
  e : Word
  f : Word
  g : Word
  h : Word
  deriving DecidableEq, Repr

/-- One round with `K[t]` and `W[t]` (43_hash R191). -/
def sha256Round (v : ShaVars) (kt wt : Word) : ShaVars :=
  let t1 := v.h + shaBigSigma1 v.e + shaCh v.e v.f v.g + kt + wt
  let t2 := shaBigSigma0 v.a + shaMaj v.a v.b v.c
  { a := t1 + t2, b := v.a, c := v.b, d := v.c, e := v.d + t1, f := v.e, g := v.f, h := v.g }

/-- The rounds over paired constants and schedule words, in order. -/
def sha256Rounds (v : ShaVars) : List (Word × Word) → ShaVars
  | [] => v
  | (kt, wt) :: rest => sha256Rounds (sha256Round v kt wt) rest

/-- `SHA256_COMPRESS(H[0..7], M[0..15])` (43_hash R191). -/
def sha256Compress (h : Vector Word 8) (m : List Word) : Vector Word 8 :=
  let v := sha256Rounds { a := h[0], b := h[1], c := h[2], d := h[3], e := h[4], f := h[5], g := h[6], h := h[7] }
    (sha256K.zip (sha256Schedule m))
  #v[h[0] + v.a, h[1] + v.b, h[2] + v.c, h[3] + v.d, h[4] + v.e, h[5] + v.f, h[6] + v.g, h[7] + v.h]

end Sys2Proof.Machine
end

