-- ==== Sys2Proof/Machine/Engine.lean ====
section
/-! DEFINITION. The buffered block-streaming engine: blocks ready (42_stream R151), the per-block transform
(R154 to R156), and what a process step does to the state (R152, R153). -/

namespace Sys2Proof.Machine

/-- The transform state a block updates: the hash words and the chain value. -/
structure XState where
  hash : Vector Word 8
  chain : Vector Word 4
  deriving DecidableEq, Repr

/-- The transform state of the machine. -/
def State.xstate (s : State) : XState := { hash := s.hash, chain := s.chain }

/-- What a block or a run of blocks gives: the transform state after it, and its output bytes. -/
structure XResult where
  xs : XState
  bytes : List Byte
  deriving DecidableEq, Repr

/-- One block of `D`, given as its bytes: at most `BB` of them, bytes past the end reading 0 (42_stream R154). A hash
block has no output (R156); `PASS` outputs exactly its bytes (R155). -/
def blockXform (c : Ctx) (x : XState) (d : List Byte) : XResult :=
  let blk := wordsAt d (blockWords c.cfg)
  match algOf c.cfg with
  | .aes =>
    let r := cipherBlock c (Block4.ofVector x.chain) (Block4.ofWords blk)
    { xs := { x with chain := r.chain.toVector }, bytes := bytesOf r.output.words }
  | .sha256 => { xs := { x with hash := sha256Compress x.hash blk }, bytes := [] }
  | .md5 => { xs := { x with hash := md5Compress x.hash blk }, bytes := [] }
  | .pass => { xs := x, bytes := d }

/-- `XFORM(D, nblk)`: the blocks of `D` in order, each seeing the state the one before it left (42_stream R154). -/
def xform (c : Ctx) : Nat → List Byte → XState → XResult
  | 0, _, x => { xs := x, bytes := [] }
  | n + 1, d, x =>
    let r := blockXform c x (d.take (blockBytes c.cfg))
    let r' := xform c n (d.drop (blockBytes c.cfg)) r.xs
    { xs := r'.xs, bytes := r.bytes ++ r'.bytes }

/-- Blocks ready and the bytes they consume (42_stream R151). -/
structure Ready where
  nblk : Nat
  nbytes : Nat
  deriving DecidableEq, Repr

/-- `ready(flush)` for `len` buffered bytes (42_stream R151). -/
def ready (cfg : Word) (len : Nat) (flush : Bool) : Ready :=
  let bb := blockBytes cfg
  if flush then { nblk := (len + bb - 1) / bb, nbytes := len }
  else
    let n := max (len / bb - minBuf cfg) 0
    { nblk := n, nbytes := n * bb }

/-- `|OUT| + n > 4 * OUT_WORDS` (42_stream R152). -/
abbrev State.outFull (s : State) (n : Nat) : Prop := 4 * s.params.outWords < s.out.length + n

/-- The transform state and the output a run of blocks leaves in the machine. -/
def State.absorb (s : State) (r : XResult) : State :=
  { s with hash := r.xs.hash, chain := r.xs.chain, out := s.out ++ r.bytes }

/-- `D <- BUF[0 .. nbytes); BUF <- BUF[nbytes ..); O <- XFORM(D, nblk); OUT <- OUT ‖ O` for the algorithms that output
(42_stream R152, R153); a hash block's output is empty (R156). -/
def State.consume (s : State) (r : Ready) : State :=
  { s with buf := s.buf.drop r.nbytes }.absorb (xform s.ctx r.nblk (s.buf.take r.nbytes) s.xstate)

end Sys2Proof.Machine
end

