-- ==== Sys2Proof/Machine/Stream.lean ====
section
/-! DEFINITION. The streaming commands APPEND, PROCESS and FLUSH (42_stream R150, R152, R153). -/

namespace Sys2Proof.Machine

/-- `APPEND n` (42_stream R150). -/
def appendCmd (n : Nat) (s : State) : Except ErrCode State :=
  if s.phase ≠ .active then .error .sequence
  else if 4 * s.params.bufWords < s.buf.length + n then .error .bufOverflow
  else .ok { s with buf := s.buf ++ dinBytes s.din n, total := s.total + BitVec.ofNat 64 n }

/-- `PROCESS` (42_stream R152). -/
def processCmd (s : State) : Except ErrCode State :=
  if s.phase ≠ .active then .error .sequence
  else
    let r := ready s.cfg s.buf.length false
    if (algOf s.cfg).outputs = true ∧ s.outFull r.nbytes then .error .outOverflow
    else .ok (s.consume r)

/-- `FLUSH` (42_stream R153). -/
def flushCmd (s : State) : Except ErrCode State :=
  if s.phase ≠ .active then .error .sequence
  else if algOf s.cfg ≠ .pass ∧ s.buf.length % blockBytes s.cfg ≠ 0 then .error .partialBlock
  else
    let r := ready s.cfg s.buf.length true
    if (algOf s.cfg).outputs = true ∧ s.outFull r.nbytes then .error .outOverflow
    else .ok (s.consume r)

/-- APPEND_1 (42_stream R150). -/
def execAppend1 (s : State) : Result := endCommand Command.append1.word s (appendCmd 1 s)
/-- APPEND_2 (42_stream R150). -/
def execAppend2 (s : State) : Result := endCommand Command.append2.word s (appendCmd 2 s)
/-- APPEND_3 (42_stream R150). -/
def execAppend3 (s : State) : Result := endCommand Command.append3.word s (appendCmd 3 s)
/-- APPEND_4 (42_stream R150). -/
def execAppend4 (s : State) : Result := endCommand Command.append4.word s (appendCmd 4 s)
/-- PROCESS (42_stream R152). -/
def execProcess (s : State) : Result := endCommand Command.process.word s (processCmd s)
/-- FLUSH (42_stream R153). -/
def execFlush (s : State) : Result := endCommand Command.flush.word s (flushCmd s)

end Sys2Proof.Machine
end

