-- ==== Sys2Proof/Machine/Finalize.lean ====
section
/-! DEFINITION. FINALIZE, whose meaning the latched configuration chooses (30_encoding R85): PASS (42_stream R157),
hash (43_hash R180 to R183), AES encrypt and decrypt (44_cipher R220 to R222, R230). -/

namespace Sys2Proof.Machine

/-- `FINALIZE` of a `PASS` session: exactly `FLUSH`, then `PHASE <- DONE` (42_stream R157). -/
def finalizePass (s : State) : Except ErrCode State :=
  match flushCmd s with
  | .error e => .error e
  | .ok t => .ok (t.setPhase .done)

/-! ### Hash finalize (43_hash R181) -/

/-- The compression of a hash algorithm. -/
def hashCompress (md5 : Bool) (h : Vector Word 8) (m : List Word) : Vector Word 8 :=
  if md5 then md5Compress h m else sha256Compress h m

/-- `DL`, the digest length in bytes (43_hash R180). -/
def digestLen (md5 : Bool) : Nat := if md5 then 16 else 32

/-- `M`: the buffered bytes, the marker, the zero fill and the length field (43_hash R181, R183). -/
def hashPad (md5 : Bool) (buf : List Byte) (total : BitVec 64) : List Byte :=
  let l := total * 8
  let z := ((55 - (buf.length : Int)) % 64).toNat
  buf ++ [0x80] ++ List.replicate z 0 ++ (if md5 then le64 l else be64 l)

/-- The 64-byte blocks of a message compressed in order (43_hash R181). -/
def hashBlocks (md5 : Bool) : Nat → List Byte → Vector Word 8 → Vector Word 8
  | 0, _, h => h
  | n + 1, m, h => hashBlocks md5 n (m.drop 64) (hashCompress md5 h (wordsAt (m.take 64) 16))

/-- The hash state `FINALIZE` leaves: every block of `M` compressed, and for MD5 the digest swap (43_hash R181,
R182). -/
def hashFinal (md5 : Bool) (s : State) : Vector Word 8 :=
  let m := hashPad md5 s.buf s.total
  let h := hashBlocks md5 (m.length / 64) m s.hash
  if md5 then md5SwapDigest h else h

/-- The digest bytes, `B(H[0 .. DL/4 - 1])`. -/
def digestBytes (md5 : Bool) (h : Vector Word 8) : List Byte := bytesOf (h.toList.take (digestLen md5 / 4))

/-- Hash `FINALIZE` (43_hash R181). -/
def finalizeHash (md5 : Bool) (s : State) : Except ErrCode State :=
  if s.phase ≠ .active then .error .sequence
  else if s.outFull (digestLen md5) then .error .outOverflow
  else
    let h := hashFinal md5 s
    .ok { s with buf := [], hash := h, out := s.out ++ digestBytes md5 h, phase := .done }

/-! ### AES finalize (44_cipher R221, R222) -/

/-- All of `D` transformed into `OUT` through `post`, `BUF` emptied, the session done. -/
def State.finishCipher (s : State) (d : List Byte) (post : List Byte → List Byte) : State :=
  let r := xform s.ctx (d.length / 16) d s.xstate
  { { s with buf := [] }.absorb { r with bytes := post r.bytes } with phase := .done }

/-- Encrypt `FINALIZE` (44_cipher R221, R230). -/
def finalizeEncrypt (s : State) : Except ErrCode State :=
  if s.phase ≠ .active then .error .sequence
  else if noPadding s.cfg = true ∧ s.buf.length % 16 ≠ 0 then .error .partialBlock
  else
    let d := if noPadding s.cfg then s.buf else pkcs7Pad s.buf
    if s.outFull d.length then .error .outOverflow
    else .ok (s.finishCipher d id)

/-- Decrypt `FINALIZE` (44_cipher R222): room is checked for the length before unpadding. -/
def finalizeDecrypt (s : State) : Except ErrCode State :=
  if s.phase ≠ .active then .error .sequence
  else if s.buf.length % 16 ≠ 0 then .error .partialBlock
  else if s.outFull s.buf.length then .error .outOverflow
  else .ok (s.finishCipher s.buf (if noPadding s.cfg then id else pkcs7Unpad))

/-- `FINALIZE`, chosen by the latched `ALGc` and `CFG.DIR` (30_encoding R85). -/
def finalizeCmd (s : State) : Except ErrCode State :=
  match algOf s.cfg with
  | .aes => if decrypting s.cfg then finalizeDecrypt s else finalizeEncrypt s
  | .sha256 => finalizeHash false s
  | .md5 => finalizeHash true s
  | .pass => finalizePass s

/-- FINALIZE (30_encoding R85). -/
def execFinalize (s : State) : Result := endCommand Command.finalize.word s (finalizeCmd s)

end Sys2Proof.Machine
end

