-- ==== Sys2Proof/Machine/Session.lean ====
section
/-! DEFINITION. The session control commands NOP, INIT and SRESET (41_session R130 to R134). -/

namespace Sys2Proof.Machine

/-- `KEY_WR[NK-1 : 0] = all ones` (41_session R132). -/
def keysWritten (keyWr : BitVec 8) (nk : Nat) : Bool :=
  decide (keyWr.extractLsb' 0 nk = BitVec.allOnes nk)

/-- The part of `config_ok(c)` that reads the configuration alone (41_session R132, 10_state R24). -/
def configLegal (c : Word) : Bool :=
  match algOf c with
  | .aes => decide (kszOf c ≠ 3) && (decide (blkwOf c = 0) || decide (blkwOf c = 4))
  | .sha256 => decide (blkwOf c = 0) || decide (blkwOf c = 16)
  | .md5 => decide (blkwOf c = 0) || decide (blkwOf c = 16)
  | .pass => decide (blkwOf c ≤ 16)

/-- The part of `config_ok(c)` about registers nothing has written (41_session R132). -/
def operandsWritten (keyWr : BitVec 8) (ivWr : BitVec 4) (c : Word) : Bool :=
  match algOf c with
  | .aes => keysWritten keyWr (keyWords c) && (modeEcb c || decide (ivWr = 0xF))
  | .sha256 | .md5 | .pass => true

/-- `config_ok(c)` (41_session R132). -/
def configOk (keyWr : BitVec 8) (ivWr : BitVec 4) (c : Word) : Bool :=
  configLegal c && operandsWritten keyWr ivWr c

/-- The two schedules of the present key (41_session R131: `expand(KEY[0 .. NK-1])`, the rest 0). -/
def State.expandKey (s : State) (nk : Nat) : State :=
  let rows := keyExpand nk s.key.toList
  { s with ks := vectorOf 60 rows, iks := vectorOf 60 (invExpand (rowsFor nk) rows) }

/-- What every `INIT` does: latch `CTRL`, empty the queues, zero `TOTAL`, start the session (41_session R131). -/
def State.startSession (s : State) : State :=
  { s with cfg := s.ctrl, buf := [], out := [], total := 0, phase := .active }

/-- What a successful `INIT` does for its algorithm (41_session R131). -/
def State.loadAlgorithm (s : State) (c : Word) : State :=
  match algOf c with
  | .aes => { s.expandKey (keyWords c) with chain := s.iv }
  | .sha256 => { s with hash := sha256Init }
  | .md5 => { s with hash := md5Init }
  | .pass => s

/-- `INIT` (41_session R131). -/
def initCmd (s : State) : Except ErrCode State :=
  if configOk s.keyWr s.ivWr s.ctrl = true then .ok (s.startSession.loadAlgorithm s.ctrl)
  else .error .config

/-- NOP (41_session R130). -/
def execNop (s : State) : Result := endCommand Command.nop.word s (.ok s)

/-- INIT (41_session R131). -/
def execInit (s : State) : Result := endCommand Command.init.word s (initCmd s)

/-- SRESET (41_session R134, 70_reset_and_hazards R342). -/
def execSreset (s : State) : Result := endCommand Command.sreset.word s (.ok s.toReset)

end Sys2Proof.Machine
end

