-- ==== Sys2Proof/Machine/HostWrite.lean ====
section
/-! DEFINITION. Host writes of the registers (40_host_access R101 to R103, R105 to R108, R110), the write of CMD with
the decode and check order of 60_exceptions R304 among them. -/

namespace Sys2Proof.Machine

/-- A write of a mapped read-only register completes and is ignored; an unmapped index of a schedule gets `bus_error`
(40_host_access R110, 20_memory R64, R65). -/
def writeIgnored (r : Reg) (s : State) : Result := if r.mapped = true then writeTo s else busError s

/-- The meaning a decoded command word has (60_exceptions R304, `case opc of`). -/
def runCommand (k : Command) (s : State) : Result :=
  match k with
  | .nop => execNop s
  | .init => execInit s
  | .append1 => execAppend1 s
  | .append2 => execAppend2 s
  | .append3 => execAppend3 s
  | .append4 => execAppend4 s
  | .process => execProcess s
  | .flush => execFlush s
  | .finalize => execFinalize s
  | .sreset => execSreset s

/-- WR_CMD (40_host_access R108, 60_exceptions R304): a word that does not decode raises `ERR_ILLEGAL_CMD`. -/
def execWrCmd (c : Word) (s : State) : Result :=
  match decodeCommand c with
  | .ok k => runCommand k s
  | .error _ => endCommand c s (.error .illegalCmd)

/-- WR_CTRL (R102). -/
def execWrCtrl (v : Word) (s : State) : Result := writeTo (s.setCtrl v)
/-- WR_STATUS (R105): bit 2 clears the error capture, every other bit is ignored. -/
def execWrStatus (v : Word) (s : State) : Result := writeTo (if v.getLsbD 2 = true then s.clearError else s)
/-- WR_INT_EN (R106). -/
def execWrIntEn (v : Word) (s : State) : Result := writeTo (s.setIntEn v)
/-- WR_DIN (R107). -/
def execWrDin (v : Word) (s : State) : Result := writeTo (s.setDin v)
/-- WR_KEYi (R103). -/
def execWrKey (i : Fin 8) (v : Word) (s : State) : Result := writeTo (s.setKey i v)
/-- WR_IVi (R103). -/
def execWrIv (i : Fin 4) (v : Word) (s : State) : Result := writeTo (s.setIv i v)

/-- WR_ID (R110). -/
def execWrId (_ : Word) (s : State) : Result := writeIgnored .id s
/-- WR_ERRINFO (R110). -/
def execWrErrInfo (_ : Word) (s : State) : Result := writeIgnored .errInfo s
/-- WR_DOUT (R110): does not push to `OUT`. -/
def execWrDout (_ : Word) (s : State) : Result := writeIgnored .dout s
/-- WR_BUF_BYTES (R110). -/
def execWrBufBytes (_ : Word) (s : State) : Result := writeIgnored .bufBytes s
/-- WR_OUT_BYTES (R110). -/
def execWrOutBytes (_ : Word) (s : State) : Result := writeIgnored .outBytes s
/-- WR_TOTAL_LO (R110). -/
def execWrTotalLo (_ : Word) (s : State) : Result := writeIgnored .totalLo s
/-- WR_TOTAL_HI (R110). -/
def execWrTotalHi (_ : Word) (s : State) : Result := writeIgnored .totalHi s
/-- WR_CFG (R110). -/
def execWrCfg (_ : Word) (s : State) : Result := writeIgnored .cfg s
/-- WR_CAP (R110). -/
def execWrCap (_ : Word) (s : State) : Result := writeIgnored .cap s
/-- WR_CHAINi (R110). -/
def execWrChain (i : Fin 4) (_ : Word) (s : State) : Result := writeIgnored (.chain i) s
/-- WR_HASHi (R110). -/
def execWrHash (i : Fin 8) (_ : Word) (s : State) : Result := writeIgnored (.hash i) s
/-- WR_KSi (R110; i = 60..63 is `bus_error`). -/
def execWrKs (i : Fin 64) (_ : Word) (s : State) : Result := writeIgnored (.ks i) s
/-- WR_IKSi (R110; i = 60..63 is `bus_error`). -/
def execWrIks (i : Fin 64) (_ : Word) (s : State) : Result := writeIgnored (.iks i) s

end Sys2Proof.Machine
end

