-- ==== Sys2Proof/Machine/Dispatch.lean ====
section
/-! DEFINITION. The dispatch: one arm per constructor of Instr, each one direct call of its meaning. -/

namespace Sys2Proof.Machine

def exec (i : Instr) (s : State) : Host.Outcome State Fault Refusal :=
  match i with
  | .nop => Sys2Proof.Machine.execNop s
  | .init => Sys2Proof.Machine.execInit s
  | .append1 => Sys2Proof.Machine.execAppend1 s
  | .append2 => Sys2Proof.Machine.execAppend2 s
  | .append3 => Sys2Proof.Machine.execAppend3 s
  | .append4 => Sys2Proof.Machine.execAppend4 s
  | .process => Sys2Proof.Machine.execProcess s
  | .flush => Sys2Proof.Machine.execFlush s
  | .finalize => Sys2Proof.Machine.execFinalize s
  | .sreset => Sys2Proof.Machine.execSreset s
  | .rdId => Sys2Proof.Machine.execRdId s
  | .wrId v => Sys2Proof.Machine.execWrId v s
  | .rdCtrl => Sys2Proof.Machine.execRdCtrl s
  | .wrCtrl v => Sys2Proof.Machine.execWrCtrl v s
  | .rdStatus => Sys2Proof.Machine.execRdStatus s
  | .wrStatus v => Sys2Proof.Machine.execWrStatus v s
  | .rdErrInfo => Sys2Proof.Machine.execRdErrInfo s
  | .wrErrInfo v => Sys2Proof.Machine.execWrErrInfo v s
  | .rdIntEn => Sys2Proof.Machine.execRdIntEn s
  | .wrIntEn v => Sys2Proof.Machine.execWrIntEn v s
  | .rdCmd => Sys2Proof.Machine.execRdCmd s
  | .wrCmd c => Sys2Proof.Machine.execWrCmd c s
  | .rdDin => Sys2Proof.Machine.execRdDin s
  | .wrDin v => Sys2Proof.Machine.execWrDin v s
  | .rdDout => Sys2Proof.Machine.execRdDout s
  | .wrDout v => Sys2Proof.Machine.execWrDout v s
  | .rdBufBytes => Sys2Proof.Machine.execRdBufBytes s
  | .wrBufBytes v => Sys2Proof.Machine.execWrBufBytes v s
  | .rdOutBytes => Sys2Proof.Machine.execRdOutBytes s
  | .wrOutBytes v => Sys2Proof.Machine.execWrOutBytes v s
  | .rdTotalLo => Sys2Proof.Machine.execRdTotalLo s
  | .wrTotalLo v => Sys2Proof.Machine.execWrTotalLo v s
  | .rdTotalHi => Sys2Proof.Machine.execRdTotalHi s
  | .wrTotalHi v => Sys2Proof.Machine.execWrTotalHi v s
  | .rdCfg => Sys2Proof.Machine.execRdCfg s
  | .wrCfg v => Sys2Proof.Machine.execWrCfg v s
  | .rdCap => Sys2Proof.Machine.execRdCap s
  | .wrCap v => Sys2Proof.Machine.execWrCap v s
  | .rdKey j => Sys2Proof.Machine.execRdKey j s
  | .wrKey j v => Sys2Proof.Machine.execWrKey j v s
  | .rdIv j => Sys2Proof.Machine.execRdIv j s
  | .wrIv j v => Sys2Proof.Machine.execWrIv j v s
  | .rdChain j => Sys2Proof.Machine.execRdChain j s
  | .wrChain j v => Sys2Proof.Machine.execWrChain j v s
  | .rdHash j => Sys2Proof.Machine.execRdHash j s
  | .wrHash j v => Sys2Proof.Machine.execWrHash j v s
  | .rdKs j => Sys2Proof.Machine.execRdKs j s
  | .wrKs j v => Sys2Proof.Machine.execWrKs j v s
  | .rdIks j => Sys2Proof.Machine.execRdIks j s
  | .wrIks j v => Sys2Proof.Machine.execWrIks j v s

end Sys2Proof.Machine
end

