-- ==== Sys2Proof/Machine/Step.lean ====
section
/-! DEFINITION. One step: the next input is served (00_scope R13, 70_reset_and_hazards R356), or the block waits
(R341). -/

namespace Sys2Proof.Machine

/-- One access served: the instruction it is, or an error response (20_memory R63, R64). -/
def serve (a : HostAccess) (s : State) : Host.Outcome State Fault Refusal :=
  match decodeAccess a with
  | .ok i => exec i s
  | .error _ => busError s

/-- One step. -/
def step (s : State) : Host.Outcome State Fault Refusal :=
  match s.inputs with
  | [] => .next s
  | .access a :: rest => serve a { s with inputs := rest }
  | .hardReset :: rest => .next ({ s with inputs := rest }.toReset.respond .idle)

/-- `s` with the instruction of a table word as the next access the host delivers (assumption log 2). -/
def State.withFetchWord (s : State) (nbits w : Nat) : State :=
  match encodedOfTableWord nbits w with
  | some e => { s with inputs := .access e.toAccess :: s.inputs }
  | none => s

end Sys2Proof.Machine
end

