-- ==== Sys2Proof/Safety.lean ====
section
/-! DEFINITION. What a well-kept state is, in the terms claims use: the facts the spec says hold in every state reached
from reset (10_state R23, R25 to R29, R33, R39; 43_hash R181, R184; 60_exceptions R301, R302; 70_reset_and_hazards
R352). -/

namespace Sys2Proof.Machine

/-- The session's algorithm is a hash. -/
def hashSession (s : State) : Bool :=
  match algOf s.cfg with
  | .sha256 | .md5 => true
  | .aes | .pass => false

/-- `KS` and `IKS` are the two schedules of one key (10_state R44, 70_reset_and_hazards R352: no stale schedule can
exist). -/
def SchedulesOf (s : State) (key : List Word) : Prop :=
  s.ks = vectorOf 60 (keyExpand (keyWords s.cfg) key) ∧
    s.iks = vectorOf 60 (invExpand (rowsFor (keyWords s.cfg)) (keyExpand (keyWords s.cfg) key))

/-- The invariant every step keeps. -/
structure Inv (s : State) : Prop where
  /-- The capacities are legal (00_scope R6). -/
  params_legal : s.params.Legal
  /-- `|BUF| <= 4 * BUF_WORDS` (10_state R33). -/
  buf_fits : s.buf.length ≤ 4 * s.params.bufWords
  /-- `|OUT| <= 4 * OUT_WORDS` (10_state R33). -/
  out_fits : s.out.length ≤ 4 * s.params.outWords
  /-- Reserved bits of `CTRL` read 0 (10_state R23). -/
  ctrl_masked : s.ctrl &&& ~~~ctrlMask = 0
  /-- Reserved bits of `CFG` read 0 (10_state R25). -/
  cfg_masked : s.cfg &&& ~~~ctrlMask = 0
  /-- Only a legal configuration is latched (41_session R131, R132). -/
  cfg_legal : configLegal s.cfg = true
  /-- Reserved bits of `INT_EN` read 0 (10_state R29). -/
  intEn_masked : s.intEn &&& ~~~intEnMask = 0
  /-- With `ERR = 0` the capture is clear (10_state R26, R28). -/
  capture_clear : s.err = false → s.errMulti = false ∧ s.errCode = 0 ∧ s.errInfo = 0
  /-- With `ERR = 1` the code is one of 1 to 7 (60_exceptions R301). -/
  capture_code : s.err = true → 1 ≤ s.errCode.toNat ∧ s.errCode.toNat ≤ 7
  /-- `IDLE` is the state reset leaves: nothing buffered, nothing to read, nothing latched (70_reset_and_hazards R340). -/
  idle_empty : s.phase = .idle → s.buf = [] ∧ s.out = [] ∧ s.total = 0 ∧ s.cfg = 0
  /-- `FINALIZE` has emptied `BUF` (43_hash R181, 44_cipher R221, R222). -/
  done_empty : s.phase = .done → s.buf = []
  /-- A hash session's consumed blocks never reach `OUT` (43_hash R184). -/
  hash_out : s.phase = .active → hashSession s = true → s.out = []
  /-- `TOTAL ≡ |BUF| (mod 64)` in a hash session (43_hash R181). -/
  hash_total : s.phase = .active → hashSession s = true → s.total.toNat % 64 = s.buf.length % 64
  /-- `HASH4..7` are 0 in an MD5 session (10_state R39, 43_hash R200). -/
  md5_upper : s.phase ≠ .idle → algOf s.cfg = .md5 →
    s.hash[4] = 0 ∧ s.hash[5] = 0 ∧ s.hash[6] = 0 ∧ s.hash[7] = 0
  /-- In an AES session the schedules are those of one key of the configured size. -/
  schedules : s.phase ≠ .idle → algOf s.cfg = .aes → ∃ key : List Word, key.length = 8 ∧ SchedulesOf s key

/-- A step that answers a next state: on this machine every step does (60_exceptions R300). -/
def Completes (r : Result) : Prop := ∃ t, r = .next t

end Sys2Proof.Machine
end

