-- ==== Sys2Proof/Certificates/Slice0/Obligations.lean ====
section
/-! DEFINITION. The statements about CTS-BE, one `def Obligations.<Name> : Prop` each, and the few readings of the spec
they share, written from its rules and not from the model's operations. The field `resp` is the model's rendering of
what the bus answers (assumption log 3), `inputs` of what the host sends (assumption log 1); a statement gives the
whole next state, so everything it does not name is unchanged. -/

namespace Sys2Proof.Spec

open Sys2Proof.Machine

/-- The ten legal command words (30_encoding R84). -/
def commandWords : List Word :=
  [0x00000000, 0x00000001, 0x00000102, 0x00000202, 0x00000302, 0x00000402, 0x00000003, 0x00000004, 0x00000005,
   0x0000000F]

/-- The ten command words with their rows (30_encoding R84). -/
def commandRows : List (Word × Instr) :=
  [(0x00000000, .nop), (0x00000001, .init), (0x00000102, .append1), (0x00000202, .append2), (0x00000302, .append3),
   (0x00000402, .append4), (0x00000003, .process), (0x00000004, .flush), (0x00000005, .finalize), (0x0000000F, .sreset)]

/-- A register of the window: its offset, its read, and its write of a value. -/
structure RegisterRow where
  offset : Nat
  read : Instr
  write : Word → Instr

/-- The register window (10_state R22). -/
def registerRows : List RegisterRow :=
  [⟨0x000, .rdId, .wrId⟩, ⟨0x004, .rdCtrl, .wrCtrl⟩, ⟨0x008, .rdStatus, .wrStatus⟩, ⟨0x00C, .rdErrInfo, .wrErrInfo⟩,
   ⟨0x010, .rdIntEn, .wrIntEn⟩, ⟨0x014, .rdCmd, .wrCmd⟩, ⟨0x018, .rdDin, .wrDin⟩, ⟨0x01C, .rdDout, .wrDout⟩,
   ⟨0x020, .rdBufBytes, .wrBufBytes⟩, ⟨0x024, .rdOutBytes, .wrOutBytes⟩, ⟨0x028, .rdTotalLo, .wrTotalLo⟩,
   ⟨0x02C, .rdTotalHi, .wrTotalHi⟩, ⟨0x030, .rdCfg, .wrCfg⟩, ⟨0x034, .rdCap, .wrCap⟩] ++
  (List.finRange 8).map (fun i => ⟨0x040 + 4 * i.val, .rdKey i, .wrKey i⟩) ++
  (List.finRange 4).map (fun i => ⟨0x060 + 4 * i.val, .rdIv i, .wrIv i⟩) ++
  (List.finRange 4).map (fun i => ⟨0x070 + 4 * i.val, .rdChain i, .wrChain i⟩) ++
  (List.finRange 8).map (fun i => ⟨0x080 + 4 * i.val, .rdHash i, .wrHash i⟩) ++
  ((List.finRange 64).take 60).map (fun i => ⟨0x100 + 4 * i.val, .rdKs i, .wrKs i⟩) ++
  ((List.finRange 64).take 60).map (fun i => ⟨0x200 + 4 * i.val, .rdIks i, .wrIks i⟩)

/-- The reserved and illegal encodings as 30_encoding R87 lists them. -/
def illegalWord (c : Word) : Prop :=
  c.extractLsb' 11 21 ≠ 0 ∨
  (0x06 ≤ (c.extractLsb' 0 8).toNat ∧ (c.extractLsb' 0 8).toNat ≤ 0x0E) ∨
  (0x10 ≤ (c.extractLsb' 0 8).toNat ∧ (c.extractLsb' 0 8).toNat ≤ 0xFF) ∨
  (c.extractLsb' 0 8 = 2 ∧ ((c.extractLsb' 8 3).toNat = 0 ∨ 5 ≤ (c.extractLsb' 8 3).toNat)) ∨
  (c.extractLsb' 0 8 ≠ 2 ∧ c.extractLsb' 8 3 ≠ 0)

/-- The state with an error captured (60_exceptions R302). -/
def captured (s : State) (code : BitVec 4) (info : Word) : State :=
  if s.err then { s with errMulti := true } else { s with err := true, errCode := code, errInfo := info }

/-- The state with no error held (60_exceptions R306). -/
def cleared (s : State) : State := { s with err := false, errMulti := false, errCode := 0, errInfo := 0 }

/-- A command word refused: the capture alone (60_exceptions R302, R303). That the write of `CMD` which carried the word
then completes as a write, `resp := .writeDone`, is DEDUCED, the model's reading of R300 and R301 (assumption log 11). -/
def refused (s : State) (code : BitVec 4) (info : Word) : State := { captured s code info with resp := .writeDone }

/-- `NK` for `KSZ` 0, 1, 2 (10_state R24). -/
def nk (c : Word) : Nat :=
  if c.extractLsb' 8 2 = 0 then 8 else if c.extractLsb' 8 2 = 1 then 4 else 6

/-- `BLKW` (10_state R23). -/
def blkw (c : Word) : Nat := (c.extractLsb' 16 5).toNat

/-- `config_ok(CTRL)` (41_session R132). -/
def configOk (s : State) : Prop :=
  (s.ctrl.extractLsb' 0 2 = 0 → s.ctrl.extractLsb' 8 2 ≠ 3 ∧ (blkw s.ctrl = 0 ∨ blkw s.ctrl = 4) ∧
    (∀ i < nk s.ctrl, s.keyWr.getLsbD i = true) ∧ (s.ctrl.getLsbD 3 = true ∨ s.ivWr = 0xF)) ∧
  (s.ctrl.extractLsb' 0 2 = 1 → blkw s.ctrl = 0 ∨ blkw s.ctrl = 16) ∧
  (s.ctrl.extractLsb' 0 2 = 2 → blkw s.ctrl = 0 ∨ blkw s.ctrl = 16) ∧
  (s.ctrl.extractLsb' 0 2 = 3 → blkw s.ctrl ≤ 16)

/-- What every successful `INIT` does (41_session R131). -/
def started (s : State) : State :=
  { s with cfg := s.ctrl, buf := [], out := [], total := 0, phase := .active, resp := .writeDone }

/-- The unmapped aligned offsets (20_memory R64). -/
def unmapped (a : Nat) : Prop :=
  a = 0x038 ∨ a = 0x03C ∨ (0x0A0 ≤ a ∧ a ≤ 0x0FC) ∨ (0x1F0 ≤ a ∧ a ≤ 0x1FC) ∨ (0x2F0 ≤ a ∧ a ≤ 0x3FC)

/-- A partial block that stops the command: `FLUSH` but in `PASS`, and AES `FINALIZE` unless it pads (42_stream R153;
44_cipher R221, R222). -/
def partialRefused (i : Instr) (s : State) : Prop :=
  (i = .flush ∧ algOf s.cfg ≠ .pass ∧ s.buf.length % blockBytes s.cfg ≠ 0) ∨
  (i = .finalize ∧ algOf s.cfg = .aes ∧ (decrypting s.cfg = true ∨ noPadding s.cfg = true) ∧ s.buf.length % 16 ≠ 0)

/-- The bytes a script of DIN writes and APPENDs adds to `BUF`, `din` being the data word it starts from. -/
def appendedBytes : Word → List Instr → List Byte
  | _, [] => []
  | _, .wrDin v :: rest => appendedBytes v rest
  | din, .append1 :: rest => (wordBytes din).take 1 ++ appendedBytes din rest
  | din, .append2 :: rest => (wordBytes din).take 2 ++ appendedBytes din rest
  | din, .append3 :: rest => (wordBytes din).take 3 ++ appendedBytes din rest
  | din, .append4 :: rest => (wordBytes din).take 4 ++ appendedBytes din rest
  | din, _ :: rest => appendedBytes din rest

/-- The instructions a feeding script is made of (42_stream R160): DIN writes, APPENDs and PROCESSes. -/
def feeding : Instr → Bool
  | .wrDin _ | .append1 | .append2 | .append3 | .append4 | .process => true
  | _ => false

/-- Instructions run one after another. -/
def runInstrs : List Instr → State → Option State
  | [], s => some s
  | i :: rest, s =>
    match exec i s with
    | .next t => runInstrs rest t
    | .fault _ => none
    | .refused _ => none

/-- The first 64 primes (43_hash R193). -/
def primes : List Nat :=
  [2, 3, 5, 7, 11, 13, 17, 19, 23, 29, 31, 37, 41, 43, 47, 53, 59, 61, 67, 71, 73, 79, 83, 89, 97, 101, 103, 107, 109,
   113, 127, 131] ++
  [137, 139, 149, 151, 157, 163, 167, 173, 179, 181, 191, 193, 197, 199, 211, 223, 227, 229, 233, 239, 241, 251, 257,
   263, 269, 271, 277, 281, 283, 293, 307, 311]

/-- One SHA-256 round with `K[t]` and `W[t]` (43_hash R191, its functions written out from R192). -/
def sha256Step (v : ShaVars) (kt wt : Word) : ShaVars :=
  let t1 := v.h + (v.e.rotateRight 6 ^^^ v.e.rotateRight 11 ^^^ v.e.rotateRight 25) +
    ((v.e &&& v.f) ^^^ (~~~v.e &&& v.g)) + kt + wt
  let t2 := (v.a.rotateRight 2 ^^^ v.a.rotateRight 13 ^^^ v.a.rotateRight 22) +
    ((v.a &&& v.b) ^^^ (v.a &&& v.c) ^^^ (v.b &&& v.c))
  { h := v.g, g := v.f, f := v.e, e := v.d + t1, d := v.c, c := v.b, b := v.a, a := t1 + t2 }

/-- The MD5 round functions F, G, H, I by step (43_hash R202). -/
def md5F (i : Nat) (b c d : Word) : Word :=
  if i < 16 then (b &&& c) ||| (~~~b &&& d)
  else if i < 32 then (b &&& d) ||| (c &&& ~~~d)
  else if i < 48 then b ^^^ c ^^^ d
  else c ^^^ (b ||| ~~~d)

/-- The MD5 message-word order (43_hash R203). -/
def md5Word (i : Nat) : Nat :=
  if i < 16 then i else if i < 32 then (1 + 5 * i) % 16 else if i < 48 then (5 + 3 * i) % 16 else (7 * i) % 16

/-- The MD5 rotate amounts (43_hash R203). -/
def md5Rotate (i : Nat) : Nat :=
  (if i < 16 then [7, 12, 17, 22] else if i < 32 then [5, 9, 14, 20] else if i < 48 then [4, 11, 16, 23]
    else [6, 10, 15, 21]).getD (i % 4) 0

/-- The MD5 additive constants, the normative table of 43_hash R204: a row of eight a number, the first the most
significant. -/
def md5Rows : List Nat :=
  [0xd76aa478e8c7b756242070dbc1bdceeef57c0faf4787c62aa8304613fd469501,
   0x698098d88b44f7afffff5bb1895cd7be6b901122fd987193a679438e49b40821,
   0xf61e2562c040b340265e5a51e9b6c7aad62f105d02441453d8a1e681e7d3fbc8,
   0x21e1cde6c33707d6f4d50d87455a14eda9e3e905fcefa3f8676f02d98d2a4c8a,
   0xfffa39428771f6816d9d6122fde5380ca4beea444bdecfa9f6bb4b60bebfbc70,
   0x289b7ec6eaa127fad4ef308504881d05d9d4d039e6db99e51fa27cf8c4ac5665,
   0xf4292244432aff97ab9423a7fc93a039655b59c38f0ccc92ffeff47d85845dd1,
   0x6fa87e4ffe2ce6e0a30143144e0811a1f7537e82bd3af2352ad7d2bbeb86d391]

/-- One MD5 step over the big-endian message words `m`, each read with its bytes reversed (43_hash R201). -/
def md5Next (m : List Word) (i : Nat) (v : Md5Vars) : Md5Vars :=
  let w := m.getD (md5Word i) 0
  let x : Word := w.extractLsb' 0 8 ++ w.extractLsb' 8 8 ++ w.extractLsb' 16 8 ++ w.extractLsb' 24 8
  let n := v.a + md5F i v.b v.c v.d + x + BitVec.ofNat 32 (md5Rows.getD (i / 8) 0 >>> (32 * (7 - i % 8)))
  { a := v.d, b := v.b + n.rotateLeft (md5Rotate i), c := v.b, d := v.c }

/-- One column of a fused AES round with its schedule word (45_aes R262). -/
def fusedColumn (t : Nat → Byte → Word) (a b c d k : Word) : Word :=
  t 0 (a.extractLsb' 24 8) ^^^ t 1 (b.extractLsb' 16 8) ^^^ t 2 (c.extractLsb' 8 8) ^^^ t 3 (d.extractLsb' 0 8) ^^^ k

/-- One column of the final AES round with its schedule word (45_aes R262). -/
def finalColumn (box : Byte → Byte) (a b c d k : Word) : Word :=
  (box (a.extractLsb' 24 8) ++ box (b.extractLsb' 16 8) ++ box (c.extractLsb' 8 8) ++ box (d.extractLsb' 0 8)) ^^^ k

/-- `o` is `CRYPT(p, K, T, BOX)` with `nr` rounds: the states between the rounds are the `s` (45_aes R262). -/
def crypts (nr : Nat) (k : Nat → Word) (t : Nat → Byte → Word) (box : Byte → Byte) (p o : Block4) : Prop :=
  ∃ s : Nat → Block4,
    s 0 = ⟨p.w0 ^^^ k 0, p.w1 ^^^ k 1, p.w2 ^^^ k 2, p.w3 ^^^ k 3⟩ ∧
    (∀ r < nr - 1, s (r + 1) =
      ⟨fusedColumn t (s r).w0 (s r).w1 (s r).w2 (s r).w3 (k (4 * r + 4)),
        fusedColumn t (s r).w1 (s r).w2 (s r).w3 (s r).w0 (k (4 * r + 5)),
        fusedColumn t (s r).w2 (s r).w3 (s r).w0 (s r).w1 (k (4 * r + 6)),
        fusedColumn t (s r).w3 (s r).w0 (s r).w1 (s r).w2 (k (4 * r + 7))⟩) ∧
    ∀ e, e = s (nr - 1) → o =
      ⟨finalColumn box e.w0 e.w1 e.w2 e.w3 (k (4 * nr)), finalColumn box e.w1 e.w2 e.w3 e.w0 (k (4 * nr + 1)),
        finalColumn box e.w2 e.w3 e.w0 e.w1 (k (4 * nr + 2)), finalColumn box e.w3 e.w0 e.w1 e.w2 (k (4 * nr + 3))⟩

/-- The key words of 45_aes R266: key byte `i` is `i`. -/
def knownKey : List Word :=
  [0x00010203, 0x04050607, 0x08090a0b, 0x0c0d0e0f, 0x10111213, 0x14151617, 0x18191a1b, 0x1c1d1e1f]

/-- The plaintext block of 45_aes R266. -/
def knownPlain : Block4 := ⟨0x00112233, 0x44556677, 0x8899aabb, 0xccddeeff⟩

end Sys2Proof.Spec

open Sys2Proof Sys2Proof.Machine

/-! ### Encoding -/

/-- Words written out from 30_encoding R81, R82, R84 and 10_state R22 decode to their instructions: all ten command
words, and the read and the write of every register of the window. -/
def Obligations.TableWordsDecodeToTheirRows : Prop :=
  decodeTableWord 32 0x00000000 = some .nop ∧ decodeTableWord 32 0x00000001 = some .init ∧
  decodeTableWord 32 0x00000302 = some .append3 ∧ decodeTableWord 32 0x00000005 = some .finalize ∧
  decodeTableWord 32 0x0000000F = some .sreset ∧ decodeTableWord 16 0x008 = some .rdStatus ∧
  decodeTableWord 16 0x414 = some (.wrCmd 0) ∧ decodeTableWord 16 0x05C = some (.rdKey 7) ∧
  decodeTableWord 16 0x46C = some (.wrIv 3 0) ∧ decodeTableWord 16 0x1EC = some (.rdKs 59) ∧
  decodeTableWord 32 0x00000105 = none ∧ decodeTableWord 16 0x1F0 = none ∧
  (∀ k ∈ Spec.commandRows, decodeTableWord 32 k.1.toNat = some k.2) ∧
  (∀ r ∈ Spec.registerRows, decodeTableWord 16 r.offset = some r.read ∧
    decodeTableWord 16 (0x400 + r.offset) = some (r.write 0))

/-- Every well-formed instruction is decoded from its encoding, every operand at every value (30_encoding R81, R82,
R84; 10_state R22). -/
def Obligations.DecodeOfEncodeGivesTheInstruction : Prop :=
  ∀ i : Instr, i.wf = true → decode (encode i) = .ok i

/-- A form that decodes is the one encoding of a well-formed instruction: no two forms mean the same row. -/
def Obligations.DecodedFormIsItsEncoding : Prop :=
  ∀ (e : Encoded) (i : Instr), decode e = .ok i → i.wf = true ∧ encode i = e

/-- 30_encoding R87: the illegal words are exactly the listed classes, every other of the 2^32 words is one of the ten
legal ones, and each illegal word raises `ERR_ILLEGAL_CMD` with `ERRINFO` = the word and changes nothing else, or sets
`ERR_MULTI` alone when an error is held (60_exceptions R301, R302). That the write of `CMD` itself completes is
DEDUCED (assumption log 11). -/
def Obligations.IllegalCommandWordsRaiseIllegalCmd : Prop :=
  (∀ c : Word, Spec.illegalWord c ↔ c ∉ Spec.commandWords) ∧
  ∀ (c : Word) (s : State), Spec.illegalWord c → exec (.wrCmd c) s = .next (Spec.refused s 1 c)

/-- A write of `CMD` with a legal word does exactly what the word's own row does (40_host_access R108, 60_exceptions
R304). That the write then completes on the bus in every state, when the command is refused too, is DEDUCED, the model's
reading of R300 and R301 (assumption log 11). -/
def Obligations.LegalCommandWordsRunTheirRow : Prop :=
  ∀ (k : Command) (s : State), k.word ∈ Spec.commandWords ∧ exec (.wrCmd k.word) s = exec k.toInstr s ∧
    ∃ t, exec (.wrCmd k.word) s = .next t ∧ t.resp = .writeDone

/-! ### The bus and the step -/

/-- 20_memory R63 and R64: an access that is not 32 bits wide, not at a multiple of 4, or at an unmapped offset gets
`bus_error` and changes no state of CTS-BE, `STATUS.ERR` included; every other access is an instruction. -/
def Obligations.AccessesOutsideTheMapGetBusError : Prop :=
  (∀ (s : State) (x : HostAccess) (rest : List Input), s.inputs = .access x :: rest →
    (x.width ≠ 32 ∨ x.addr % 4 ≠ 0 ∨ Spec.unmapped (x.addr % 0x400)) →
    step s = .next { s with inputs := rest, resp := .busError }) ∧
  (∀ x : HostAccess, x.width = 32 → x.addr % 4 = 0 → ¬ Spec.unmapped (x.addr % 0x400) →
    ∃ i : Instr, i.wf = true ∧ decodeAccess x = .ok i)

/-- A step serves the next access by the meaning of the instruction it is; a write of `CMD` that carries a row's command
word, by that row's meaning. An access of 32 bits at a register's offset is that register's read, or its write of the
access's data (10_state R22). -/
def Obligations.StepRunsTheDecodedInstruction : Prop :=
  (∀ (s : State) (x : HostAccess) (rest : List Input) (i : Instr), s.inputs = .access x :: rest →
    decodeAccess x = .ok i → step s = exec i { s with inputs := rest }) ∧
  (∀ (s : State) (x : HostAccess) (rest : List Input) (k : Command), s.inputs = .access x :: rest →
    x.isWrite = true → x.width = 32 → x.addr % 0x400 = 0x014 → x.data = k.word →
    step s = exec k.toInstr { s with inputs := rest }) ∧
  (∀ (s : State) (x : HostAccess) (rest : List Input), ∀ k ∈ Spec.commandRows, s.inputs = .access x :: rest →
    x.isWrite = true → x.width = 32 → x.addr % 0x400 = 0x014 → x.data = k.1 →
    step s = exec k.2 { s with inputs := rest }) ∧
  (∀ x : HostAccess, ∀ r ∈ Spec.registerRows, x.width = 32 → x.addr % 0x400 = r.offset →
    decodeAccess x = .ok (if x.isWrite then r.write x.data else r.read))

/-- Placing a table word where the step fetches makes the step run exactly its instruction (assumption logs 2, 14). -/
def Obligations.FetchedTableWordRuns : Prop :=
  ∀ (s : State) (nbits w : Nat) (i : Instr), decodeTableWord nbits w = some i →
    step (s.withFetchWord nbits w) = exec i s

/-- With no access pending the block waits (70_reset_and_hazards R341), and hardware reset has the effect of SRESET
(R342); that reset arrives as an input, and that it silences the bus, is the model's choice (assumption log 7). -/
def Obligations.BlockWaitsAndHardwareResetResets : Prop :=
  (∀ s : State, s.inputs = [] → step s = .next s) ∧
  ∀ (s : State) (rest : List Input), s.inputs = .hardReset :: rest →
    step s = .next { State.resetWith s.params with inputs := rest, resp := .idle } ∧
    ∃ t, exec .sreset { s with inputs := rest } = .next t ∧ step s = .next { t with resp := .idle }

/-- No instruction and no step faults or refuses: there is no halt, lock-up or fault state (60_exceptions R300). No
instruction changes the capacities or the inputs still to come (00_scope R6; assumption logs 1, 5). -/
def Obligations.EveryStepAnswersNext : Prop :=
  (∀ (i : Instr) (s : State), ∃ t, exec i s = .next t ∧ t.params = s.params ∧ t.inputs = s.inputs) ∧
  ∀ s : State, ∃ t, step s = .next t

/-! ### Invariants -/

/-- Every step keeps the invariant of Safety.lean, from every state that meets it (10_state R33 and the rules cited
there). -/
def Obligations.StepKeepsInvariant : Prop := ∀ s t : State, Inv s → step s = .next t → Inv t

/-- The invariant holds right after reset, for all legal capacities. -/
def Obligations.ResetMeetsInvariant : Prop :=
  Inv State.reset ∧ ∀ p : Params, p.Legal → Inv (State.resetWith p)

/-! ### Host reads -/

/-- 40_host_access R100 and R109: a read of each register but `DOUT` returns its content and changes nothing but the bus
answer; an unmapped index of a schedule gets `bus_error` (20_memory R64). -/
def Obligations.ReadsReturnRegisterContents : Prop :=
  ∀ s : State,
    exec .rdId s = .next { s with resp := .readData 0x43545301 } ∧
    exec .rdCtrl s = .next { s with resp := .readData s.ctrl } ∧
    exec .rdStatus s = .next { s with resp := .readData (statusWord s) } ∧
    exec .rdErrInfo s = .next { s with resp := .readData s.errInfo } ∧
    exec .rdIntEn s = .next { s with resp := .readData s.intEn } ∧
    exec .rdCmd s = .next { s with resp := .readData 0 } ∧
    exec .rdDin s = .next { s with resp := .readData s.din } ∧
    exec .rdBufBytes s = .next { s with resp := .readData (BitVec.ofNat 32 s.buf.length) } ∧
    exec .rdOutBytes s = .next { s with resp := .readData (BitVec.ofNat 32 s.out.length) } ∧
    exec .rdTotalLo s = .next { s with resp := .readData (s.total.extractLsb' 0 32) } ∧
    exec .rdTotalHi s = .next { s with resp := .readData (s.total.extractLsb' 32 32) } ∧
    exec .rdCfg s = .next { s with resp := .readData s.cfg } ∧
    exec .rdCap s = .next
      { s with resp := .readData ((BitVec.ofNat 32 s.params.outWords <<< 16) ||| BitVec.ofNat 32 s.params.bufWords) } ∧
    (∀ i : Fin 8, exec (.rdKey i) s = .next { s with resp := .readData s.key[i] }) ∧
    (∀ i : Fin 4, exec (.rdIv i) s = .next { s with resp := .readData s.iv[i] }) ∧
    (∀ i : Fin 4, exec (.rdChain i) s = .next { s with resp := .readData s.chain[i] }) ∧
    (∀ i : Fin 8, exec (.rdHash i) s = .next { s with resp := .readData s.hash[i] }) ∧
    (∀ (i : Fin 64) (h : i.val < 60), exec (.rdKs i) s = .next { s with resp := .readData s.ks[i.val] }) ∧
    (∀ (i : Fin 64) (h : i.val < 60), exec (.rdIks i) s = .next { s with resp := .readData s.iks[i.val] }) ∧
    (∀ i : Fin 64, 60 ≤ i.val → exec (.rdKs i) s = .next { s with resp := .busError } ∧
      exec (.rdIks i) s = .next { s with resp := .busError })

/-- 40_host_access R104, both branches: the word that leaves is the first four bytes of `OUT`, zero below its end; an
empty `OUT` returns 0 and captures error 7 with `0x8000001C`. -/
def Obligations.DoutReadPopsOrUnderflows : Prop :=
  ∀ s : State,
    (s.out = [] → exec .rdDout s = .next { Spec.captured s 7 0x8000001C with resp := .readData 0 }) ∧
    (s.out ≠ [] → ∃ w : Word,
      exec .rdDout s = .next { s with out := s.out.drop (min 4 s.out.length), resp := .readData w } ∧
      w.extractLsb' 24 8 = s.out.getD 0 0 ∧ w.extractLsb' 16 8 = s.out.getD 1 0 ∧
      w.extractLsb' 8 8 = s.out.getD 2 0 ∧ w.extractLsb' 0 8 = s.out.getD 3 0)

/-- 00_scope R7: `CAP` reports `BUF_WORDS` in [15:0] and `OUT_WORDS` in [31:16]. -/
def Obligations.CapReportsBothCapacities : Prop :=
  ∀ s : State, s.params.Legal → ∃ v : Word, exec .rdCap s = .next { s with resp := .readData v } ∧
    (v.extractLsb' 0 16).toNat = s.params.bufWords ∧ (v.extractLsb' 16 16).toNat = s.params.outWords

/-- The fields of `STATUS` as a read returns them, 0 at reset, and what a write of `STATUS` does: bit 2 clears the
capture, every other bit is ignored (10_state R26; 40_host_access R105; 60_exceptions R306, R307;
70_reset_and_hazards R340). -/
def Obligations.StatusFieldsReadAndClear : Prop :=
  (∀ s : State, exec .rdStatus s = .next { s with resp := .readData (statusWord s) } ∧
    (statusWord s).extractLsb' 0 2 = (match s.phase with | .idle => 0 | .active => 1 | .done => 2) ∧
    (statusWord s).getLsbD 2 = s.err ∧ (statusWord s).getLsbD 3 = s.errMulti ∧
    (statusWord s).extractLsb' 4 4 = s.errCode ∧ (statusWord s).extractLsb' 8 8 = s.keyWr ∧
    (statusWord s).extractLsb' 16 4 = s.ivWr ∧ (statusWord s).getLsbD 20 = decide (0 < s.out.length) ∧
    (statusWord s).getLsbD 21 = irq s ∧ (statusWord s).extractLsb' 22 10 = 0) ∧
  (∀ (v : Word) (s : State), v.getLsbD 2 = true → exec (.wrStatus v) s = .next
    { s with err := false, errMulti := false, errCode := 0, errInfo := 0, resp := .writeDone }) ∧
  (∀ (v : Word) (s : State), v.getLsbD 2 = false → exec (.wrStatus v) s = .next { s with resp := .writeDone }) ∧
  statusWord State.reset = 0

/-- 60_exceptions R307: the level of `IRQ`, and that it is 0 at reset. -/
def Obligations.IrqIsTheEnabledConditions : Prop :=
  (∀ s : State, irq s = true ↔
    (s.err = true ∧ s.intEn.getLsbD 0 = true) ∨ (s.phase = .done ∧ s.intEn.getLsbD 1 = true) ∨
    (0 < s.out.length ∧ s.intEn.getLsbD 2 = true)) ∧
  irq State.reset = false

/-! ### Host writes -/

/-- 40_host_access R102, R106, R107: `CTRL` and `INT_EN` keep their stored bits, `DIN` the whole word, in every phase,
and nothing else changes. -/
def Obligations.CtrlIntEnAndDinWritesStore : Prop :=
  ∀ (v : Word) (s : State),
    exec (.wrCtrl v) s = .next { s with ctrl := v &&& 0x001F031F, resp := .writeDone } ∧
    exec (.wrIntEn v) s = .next { s with intEn := v &&& 0x7, resp := .writeDone } ∧
    exec (.wrDin v) s = .next { s with din := v, resp := .writeDone }

/-- 40_host_access R103: the word is stored, its written bit set, every other word and written bit and all else kept;
writing the same value twice is idempotent. -/
def Obligations.KeyAndIvWritesStoreAndMark : Prop :=
  (∀ (i : Fin 8) (v : Word) (s : State), ∃ t, exec (.wrKey i v) s = .next t ∧
    t = { s with key := t.key, keyWr := t.keyWr, resp := .writeDone } ∧ t.key[i] = v ∧
    (∀ j : Fin 8, j ≠ i → t.key[j] = s.key[j]) ∧ t.keyWr.getLsbD i = true ∧
    (∀ j : Fin 8, j ≠ i → t.keyWr.getLsbD j = s.keyWr.getLsbD j) ∧ exec (.wrKey i v) t = .next t) ∧
  (∀ (i : Fin 4) (v : Word) (s : State), ∃ t, exec (.wrIv i v) s = .next t ∧
    t = { s with iv := t.iv, ivWr := t.ivWr, resp := .writeDone } ∧ t.iv[i] = v ∧
    (∀ j : Fin 4, j ≠ i → t.iv[j] = s.iv[j]) ∧ t.ivWr.getLsbD i = true ∧
    (∀ j : Fin 4, j ≠ i → t.ivWr.getLsbD j = s.ivWr.getLsbD j) ∧ exec (.wrIv i v) t = .next t)

/-- 40_host_access R110, 20_memory R65: a write of a read-only register completes and is ignored; an unmapped index of
a schedule gets `bus_error` (20_memory R64). -/
def Obligations.ReadOnlyWritesAreIgnored : Prop :=
  ∀ (v : Word) (s : State),
    exec (.wrId v) s = .next { s with resp := .writeDone } ∧
    exec (.wrErrInfo v) s = .next { s with resp := .writeDone } ∧
    exec (.wrDout v) s = .next { s with resp := .writeDone } ∧
    exec (.wrBufBytes v) s = .next { s with resp := .writeDone } ∧
    exec (.wrOutBytes v) s = .next { s with resp := .writeDone } ∧
    exec (.wrTotalLo v) s = .next { s with resp := .writeDone } ∧
    exec (.wrTotalHi v) s = .next { s with resp := .writeDone } ∧
    exec (.wrCfg v) s = .next { s with resp := .writeDone } ∧
    exec (.wrCap v) s = .next { s with resp := .writeDone } ∧
    (∀ i : Fin 4, exec (.wrChain i v) s = .next { s with resp := .writeDone }) ∧
    (∀ i : Fin 8, exec (.wrHash i v) s = .next { s with resp := .writeDone }) ∧
    (∀ i : Fin 64, i.val < 60 → exec (.wrKs i v) s = .next { s with resp := .writeDone } ∧
      exec (.wrIks i v) s = .next { s with resp := .writeDone }) ∧
    (∀ i : Fin 64, 60 ≤ i.val → exec (.wrKs i v) s = .next { s with resp := .busError } ∧
      exec (.wrIks i v) s = .next { s with resp := .busError })

/-! ### Errors -/

/-- 60_exceptions R302 and the codes of R301: the first error is kept with its code and info, a further one sets
`ERR_MULTI` alone. -/
def Obligations.ErrorCaptureKeepsTheFirst : Prop :=
  (∀ (s : State) (e : ErrCode) (v : Word), s.err = false →
    s.raise e v = { s with err := true, errCode := e.code, errInfo := v }) ∧
  (∀ (s : State) (e : ErrCode) (v : Word), s.err = true → s.raise e v = { s with errMulti := true }) ∧
  ErrCode.illegalCmd.code = 1 ∧ ErrCode.config.code = 2 ∧ ErrCode.sequence.code = 3 ∧
  ErrCode.bufOverflow.code = 4 ∧ ErrCode.outOverflow.code = 5 ∧ ErrCode.partialBlock.code = 6 ∧
  ErrCode.outUnderflow.code = 7

/-- 60_exceptions R303 over all instructions but those that clear the capture. Whether the instruction raises an error,
and which, is read off the run from the same state with no error held. If it raises one, the whole next state is the
old one with that error captured and the bus answer. If it raises none, the capture held before stays and stands in
the way of nothing: all else is as with no error held (R300, R302), but for what a read of `STATUS` or `ERRINFO`
answers. -/
def Obligations.ErrorsChangeNothingButTheCapture : Prop :=
  ∀ (i : Instr) (s t t0 : State), exec i s = .next t → exec i (Spec.cleared s) = .next t0 →
    (∀ v, v.getLsbD 2 = true → i ≠ .wrStatus v) → i ≠ .sreset → i ≠ .wrCmd 0x0000000F →
    (t0.err = true → 1 ≤ t0.errCode.toNat ∧ t0.errCode.toNat ≤ 7 ∧
      t = { Spec.captured s t0.errCode t0.errInfo with resp := t0.resp }) ∧
    (t0.err = false → t =
      { t0 with err := s.err, errMulti := s.errMulti, errCode := s.errCode, errInfo := s.errInfo, resp := t.resp } ∧
      (i ≠ .rdStatus → i ≠ .rdErrInfo → t.resp = t0.resp))

/-- APPEND, PROCESS, FLUSH and FINALIZE outside an `ACTIVE` session raise `ERR_SEQUENCE` with the command word and
change nothing else (10_state R27, 70_reset_and_hazards R355). -/
def Obligations.DataCommandsOutsideActiveAreRefused : Prop :=
  ∀ s : State, s.phase ≠ .active →
    exec .append1 s = .next (Spec.refused s 3 0x00000102) ∧ exec .append2 s = .next (Spec.refused s 3 0x00000202) ∧
    exec .append3 s = .next (Spec.refused s 3 0x00000302) ∧ exec .append4 s = .next (Spec.refused s 3 0x00000402) ∧
    exec .process s = .next (Spec.refused s 3 0x00000003) ∧ exec .flush s = .next (Spec.refused s 3 0x00000004) ∧
    exec .finalize s = .next (Spec.refused s 3 0x00000005)

/-! ### Reset and session commands -/

/-- 70_reset_and_hazards R340: every element of the reset state, for any capacities; `CAP` for the defaults; and the
derived values of `CFG = 0`. These are the case 0 of 10_state R24, stated for every configuration word from its raw
bits, with the fields of R23 the engine reads; `NK` has no value for `CFG[9:8] = 3` (assumption log 9). -/
def Obligations.ResetStateIsAsTabled : Prop :=
  State.reset = State.resetWith { bufWords := 32, outWords := 64 } ∧
  exec .rdCap State.reset = .next { State.reset with resp := .readData 0x00400020 } ∧
  (∀ p : Params, (State.resetWith p).params = p ∧ (State.resetWith p).ctrl = 0 ∧ (State.resetWith p).cfg = 0 ∧ statusWord (State.resetWith p) = 0 ∧
    (State.resetWith p).phase = .idle ∧ (State.resetWith p).errInfo = 0 ∧ (State.resetWith p).intEn = 0 ∧
    (State.resetWith p).din = 0 ∧ (State.resetWith p).buf = [] ∧ (State.resetWith p).out = [] ∧
    (State.resetWith p).total = 0 ∧ irq (State.resetWith p) = false ∧
    (∀ i : Fin 8, (State.resetWith p).key[i] = 0 ∧ (State.resetWith p).hash[i] = 0) ∧
    (∀ i : Fin 4, (State.resetWith p).iv[i] = 0 ∧ (State.resetWith p).chain[i] = 0) ∧
    (∀ i : Fin 60, (State.resetWith p).ks[i] = 0 ∧ (State.resetWith p).iks[i] = 0)) ∧
  keyWords 0 = 8 ∧ rounds 0 = 14 ∧ blockWords 0 = 4 ∧ blockBytes 0 = 16 ∧ minBuf 0 = 0 ∧
  ∀ c : Word,
    (algOf c = .aes ↔ c.extractLsb' 0 2 = 0) ∧ (algOf c = .sha256 ↔ c.extractLsb' 0 2 = 1) ∧
    (algOf c = .md5 ↔ c.extractLsb' 0 2 = 2) ∧ (algOf c = .pass ↔ c.extractLsb' 0 2 = 3) ∧
    decrypting c = c.getLsbD 2 ∧ modeEcb c = c.getLsbD 3 ∧ noPadding c = c.getLsbD 4 ∧
    (c.extractLsb' 8 2 = 0 → keyWords c = 8) ∧ (c.extractLsb' 8 2 = 1 → keyWords c = 4) ∧
    (c.extractLsb' 8 2 = 2 → keyWords c = 6) ∧ rounds c = keyWords c + 6 ∧
    (c.extractLsb' 16 5 ≠ 0 → blockWords c = (c.extractLsb' 16 5).toNat) ∧
    (c.extractLsb' 16 5 = 0 → c.extractLsb' 0 2 = 1 ∨ c.extractLsb' 0 2 = 2 → blockWords c = 16) ∧
    (c.extractLsb' 16 5 = 0 → c.extractLsb' 0 2 = 0 ∨ c.extractLsb' 0 2 = 3 → blockWords c = 4) ∧
    blockBytes c = 4 * blockWords c ∧
    (c.extractLsb' 0 2 = 0 ∧ c.getLsbD 2 = true → minBuf c = 1) ∧
    (¬ (c.extractLsb' 0 2 = 0 ∧ c.getLsbD 2 = true) → minBuf c = 0)

/-- 41_session R130 and R134: NOP changes nothing, SRESET gives every element its reset value, each in every phase; and
a word with their opcode but `ARG` or `RSV` not 0 raises `ERR_ILLEGAL_CMD` and resets nothing. That the write of `CMD`
with the refused word completes is DEDUCED (assumption log 11). -/
def Obligations.NopAndSresetDoTheirWhole : Prop :=
  (∀ s : State, exec .nop s = .next { s with resp := .writeDone }) ∧
  (∀ s : State, exec .sreset s =
    .next { State.resetWith s.params with inputs := s.inputs, resp := .writeDone }) ∧
  (∀ (c : Word) (s : State), c.extractLsb' 0 8 = 0x00 ∨ c.extractLsb' 0 8 = 0x0F →
    c.extractLsb' 8 3 ≠ 0 ∨ c.extractLsb' 11 21 ≠ 0 → exec (.wrCmd c) s = .next (Spec.refused s 1 c))

/-- 41_session R132: `INIT` starts a session, the capture kept as it was, exactly when `config_ok(CTRL)` holds; otherwise it
raises `ERR_CONFIG` and the old session stays. -/
def Obligations.InitSucceedsExactlyWhenConfigOk : Prop :=
  ∀ s : State,
    (Spec.configOk s → ∃ t, exec .init s = .next t ∧ t.phase = .active ∧ t.cfg = s.ctrl ∧ t.err = s.err ∧
      t.errMulti = s.errMulti ∧ t.errCode = s.errCode ∧ t.errInfo = s.errInfo) ∧
    (¬ Spec.configOk s → exec .init s = .next (Spec.refused s 2 0x00000001))

/-- 41_session R131 and R133 for the hash and `PASS` algorithms: what `INIT` latches, empties and loads, everything
else kept (43_hash R190, R200). -/
def Obligations.InitLoadsHashAndPassSessions : Prop :=
  ∀ s : State, Spec.configOk s →
    (s.ctrl.extractLsb' 0 2 = 1 → exec .init s = .next { Spec.started s with hash :=
      #v[0x6a09e667, 0xbb67ae85, 0x3c6ef372, 0xa54ff53a, 0x510e527f, 0x9b05688c, 0x1f83d9ab, 0x5be0cd19] }) ∧
    (s.ctrl.extractLsb' 0 2 = 2 → exec .init s = .next { Spec.started s with hash :=
      #v[0x67452301, 0xefcdab89, 0x98badcfe, 0x10325476, 0, 0, 0, 0] }) ∧
    (s.ctrl.extractLsb' 0 2 = 3 → exec .init s = .next (Spec.started s))

/-- 45_aes R260 and 10_state R42: after an AES `INIT`, `KS` holds the key, then the rows of the recurrence, then 0; and
`CHAIN` holds the IV (10_state R38). Everything but the schedules and the chain is as 41_session R131 says. -/
def Obligations.InitExpandsTheAesKey : Prop :=
  ∀ s : State, Spec.configOk s → s.ctrl.extractLsb' 0 2 = 0 → ∃ t, exec .init s = .next t ∧
    t = { Spec.started s with ks := t.ks, iks := t.iks, chain := s.iv } ∧
    (∀ r < Spec.nk s.ctrl, t.ks.getD r 0 = s.key.getD r 0) ∧
    (∀ r, Spec.nk s.ctrl ≤ r → r < 4 * (Spec.nk s.ctrl + 7) →
      (r % Spec.nk s.ctrl = 0 → t.ks.getD r 0 = t.ks.getD (r - Spec.nk s.ctrl) 0 ^^^
        (subWord (rotWord (t.ks.getD (r - 1) 0)) ^^^ ((rcon.getD (r / Spec.nk s.ctrl) 0).setWidth 32 <<< 24))) ∧
      (Spec.nk s.ctrl = 8 → r % 8 = 4 →
        t.ks.getD r 0 = t.ks.getD (r - 8) 0 ^^^ subWord (t.ks.getD (r - 1) 0)) ∧
      (r % Spec.nk s.ctrl ≠ 0 → ¬ (Spec.nk s.ctrl = 8 ∧ r % 8 = 4) →
        t.ks.getD r 0 = t.ks.getD (r - Spec.nk s.ctrl) 0 ^^^ t.ks.getD (r - 1) 0)) ∧
    (∀ r, 4 * (Spec.nk s.ctrl + 7) ≤ r → t.ks.getD r 0 = 0)

/-- 45_aes R261: after an AES `INIT`, `IKS` round `j` is forward round key `NR - j` with its words in the order
0, 3, 2, 1, through `IMC` for the middle rounds; the rest is 0 (10_state R43). -/
def Obligations.InitInvertsTheSchedule : Prop :=
  ∀ s : State, Spec.configOk s → s.ctrl.extractLsb' 0 2 = 0 → ∃ t, exec .init s = .next t ∧
    (∀ j ≤ Spec.nk s.ctrl + 6, ∀ m < 4,
      t.iks.getD (4 * j + m) 0 =
        (if j = 0 ∨ j = Spec.nk s.ctrl + 6 then id else imc)
          (t.ks.getD (4 * (Spec.nk s.ctrl + 6 - j) + (4 - m) % 4) 0)) ∧
    (∀ r, 4 * (Spec.nk s.ctrl + 7) ≤ r → t.iks.getD r 0 = 0)

/-! ### Streaming -/

/-- 42_stream R150 for `n` = 1 to 4: in an `ACTIVE` session with room the `n` most significant bytes of `DIN` join
`BUF` and `TOTAL` counts them; without room `ERR_BUF_OVERFLOW` and nothing is appended. (Outside `ACTIVE`:
DataCommandsOutsideActiveAreRefused.) -/
def Obligations.AppendTakesTheTopBytesOfDin : Prop :=
  ∀ (n : Nat) (i : Instr) (c : Word) (s : State),
    (n, i, c) ∈ [(1, Instr.append1, (0x00000102 : Word)), (2, .append2, 0x00000202), (3, .append3, 0x00000302),
      (4, .append4, 0x00000402)] → s.phase = .active →
    (s.buf.length + n ≤ 4 * s.params.bufWords → exec i s = .next
      { s with
        buf := s.buf ++
          [s.din.extractLsb' 24 8, s.din.extractLsb' 16 8, s.din.extractLsb' 8 8, s.din.extractLsb' 0 8].take n
        total := s.total + BitVec.ofNat 64 n
        resp := .writeDone }) ∧
    (4 * s.params.bufWords < s.buf.length + n → exec i s = .next (Spec.refused s 4 c))

/-- 42_stream R151: the blocks ready and the bytes they consume. -/
def Obligations.ReadyCountsBlocks : Prop :=
  ∀ (cfg : Word) (len : Nat),
    (ready cfg len true).nbytes = len ∧ len ≤ (ready cfg len true).nblk * blockBytes cfg ∧
    (∀ m, len ≤ m * blockBytes cfg → (ready cfg len true).nblk ≤ m) ∧
    (ready cfg len false).nblk = len / blockBytes cfg - minBuf cfg ∧
    (ready cfg len false).nbytes = (ready cfg len false).nblk * blockBytes cfg

/-- 42_stream R152 in an `ACTIVE` session: room is checked first, for the algorithms that output; then the ready bytes
leave `BUF`, through the transform, into `OUT`, `HASH` and `CHAIN`. -/
def Obligations.ProcessTransformsReadyBlocks : Prop :=
  ∀ s : State, s.phase = .active →
    ((algOf s.cfg = .aes ∨ algOf s.cfg = .pass) →
      4 * s.params.outWords < s.out.length + (s.buf.length / blockBytes s.cfg - minBuf s.cfg) * blockBytes s.cfg →
      exec .process s = .next (Spec.refused s 5 0x00000003)) ∧
    (¬ ((algOf s.cfg = .aes ∨ algOf s.cfg = .pass) ∧
      4 * s.params.outWords < s.out.length + (s.buf.length / blockBytes s.cfg - minBuf s.cfg) * blockBytes s.cfg) →
      ∀ n r, n = s.buf.length / blockBytes s.cfg - minBuf s.cfg →
        r = xform s.ctx n (s.buf.take (n * blockBytes s.cfg)) s.xstate →
        exec .process s = .next
          { s with
            buf := s.buf.drop (n * blockBytes s.cfg)
            hash := r.xs.hash
            chain := r.xs.chain
            out := s.out ++ (if algOf s.cfg = .aes ∨ algOf s.cfg = .pass then r.bytes else [])
            resp := .writeDone })

/-- 42_stream R153 in an `ACTIVE` session: a partial block stops every algorithm but `PASS` (code 6) before room is
checked (code 5); then all of `BUF` goes through the transform. -/
def Obligations.FlushTransformsEverything : Prop :=
  ∀ s : State, s.phase = .active →
    (algOf s.cfg ≠ .pass → s.buf.length % blockBytes s.cfg ≠ 0 →
      exec .flush s = .next (Spec.refused s 6 0x00000004)) ∧
    (algOf s.cfg = .pass ∨ s.buf.length % blockBytes s.cfg = 0 →
      (algOf s.cfg = .aes ∨ algOf s.cfg = .pass) → 4 * s.params.outWords < s.out.length + s.buf.length →
      exec .flush s = .next (Spec.refused s 5 0x00000004)) ∧
    (algOf s.cfg = .pass ∨ s.buf.length % blockBytes s.cfg = 0 →
      ¬ ((algOf s.cfg = .aes ∨ algOf s.cfg = .pass) ∧ 4 * s.params.outWords < s.out.length + s.buf.length) →
      ∀ r, r = xform s.ctx ((s.buf.length + blockBytes s.cfg - 1) / blockBytes s.cfg) s.buf s.xstate →
        exec .flush s = .next
          { s with
            buf := []
            hash := r.xs.hash
            chain := r.xs.chain
            out := s.out ++ (if algOf s.cfg = .aes ∨ algOf s.cfg = .pass then r.bytes else [])
            resp := .writeDone })

/-- 42_stream R154: blocks are transformed in order, each with the state the block before it left; one block is what
the configured algorithm makes of its `BW` words, zero past the end of `D`. A session's transform reads its `CFG`, `KS`
and `IKS` and starts from its `HASH` and `CHAIN`. -/
def Obligations.XformRunsBlocksInOrder : Prop :=
  (∀ (c : Ctx) (m n : Nat) (d : List Byte) (x : XState),
    (xform c (m + n) d x).bytes = (xform c m d x).bytes ++
      (xform c n (d.drop (m * blockBytes c.cfg)) (xform c m d x).xs).bytes ∧
    (xform c (m + n) d x).xs = (xform c n (d.drop (m * blockBytes c.cfg)) (xform c m d x).xs).xs) ∧
  (∀ (c : Ctx) (d : List Byte) (x : XState),
    (algOf c.cfg = .aes → blockWords c.cfg = 4 → ∀ b, b = cipherBlock c
        { w0 := x.chain[0], w1 := x.chain[1], w2 := x.chain[2], w3 := x.chain[3] }
        { w0 := wordAt (d.take 16) 0, w1 := wordAt (d.take 16) 1, w2 := wordAt (d.take 16) 2,
          w3 := wordAt (d.take 16) 3 } →
      (xform c 1 d x).bytes = bytesOf [b.output.w0, b.output.w1, b.output.w2, b.output.w3] ∧
      (xform c 1 d x).xs.hash = x.hash ∧
      (xform c 1 d x).xs.chain = #v[b.chain.w0, b.chain.w1, b.chain.w2, b.chain.w3]) ∧
    (algOf c.cfg = .sha256 → (xform c 1 d x).bytes = [] ∧ (xform c 1 d x).xs.chain = x.chain ∧
      (xform c 1 d x).xs.hash = sha256Compress x.hash (wordsAt (d.take (blockBytes c.cfg)) (blockWords c.cfg))) ∧
    (algOf c.cfg = .md5 → (xform c 1 d x).bytes = [] ∧ (xform c 1 d x).xs.chain = x.chain ∧
      (xform c 1 d x).xs.hash = md5Compress x.hash (wordsAt (d.take (blockBytes c.cfg)) (blockWords c.cfg))) ∧
    (algOf c.cfg = .pass → (xform c 1 d x).bytes = d.take (blockBytes c.cfg) ∧ (xform c 1 d x).xs = x)) ∧
  (∀ s : State, s.ctx = { cfg := s.cfg, ks := s.ks, iks := s.iks } ∧ s.xstate = { hash := s.hash, chain := s.chain })

/-- 42_stream R155: `PASS` outputs exactly its input bytes, a partial final block without zero fill, and touches no
hash or chain; so FLUSH moves all of `BUF` to `OUT`. -/
def Obligations.PassMovesBytesUnchanged : Prop :=
  (∀ (c : Ctx) (n : Nat) (d : List Byte) (x : XState), algOf c.cfg = .pass → d.length ≤ n * blockBytes c.cfg →
    xform c n d x = { xs := x, bytes := d }) ∧
  (∀ s : State, s.phase = .active → algOf s.cfg = .pass → s.out.length + s.buf.length ≤ 4 * s.params.outWords →
    exec .flush s = .next { s with buf := [], out := s.out ++ s.buf, resp := .writeDone })

/-- 42_stream R159: a process step removes exactly whole blocks from the front of `BUF`, keeps every partial block, and
keeps at least `min(⌊|BUF| / BB⌋, MINBUF)` whole blocks (44_cipher R229). -/
def Obligations.ProcessKeepsRetainedBlocks : Prop :=
  ∀ s t : State, exec .process s = .next t → ∃ k, t.buf = s.buf.drop (k * blockBytes s.cfg) ∧
    k * blockBytes s.cfg ≤ s.buf.length ∧ t.buf.length % blockBytes s.cfg = s.buf.length % blockBytes s.cfg ∧
    min (s.buf.length / blockBytes s.cfg) (minBuf s.cfg) ≤ t.buf.length / blockBytes s.cfg

/-- A word written to `DIN`, appended whole to an empty `PASS` session with `OUT` empty and flushed, is what the next
read of `DOUT` returns: one byte order in and out (20_memory R60). -/
def Obligations.WordInIsWordOut : Prop :=
  ∀ (s : State) (v : Word), s.phase = .active → algOf s.cfg = .pass → s.buf = [] → s.out = [] → s.params.Legal →
    ∃ t, Spec.runInstrs [.wrDin v, .append4, .flush, .rdDout] s = some t ∧ t.resp = .readData v ∧ t.buf = [] ∧
      t.out = [] ∧ t.err = s.err ∧ t.errMulti = s.errMulti ∧ t.errCode = s.errCode ∧ t.errInfo = s.errInfo

/-! ### Finalize -/

/-- 42_stream R157: `FINALIZE` of a `PASS` session is FLUSH and then `DONE`; without room it is refused. -/
def Obligations.FinalizePassFlushesAndCloses : Prop :=
  ∀ s : State, s.phase = .active → algOf s.cfg = .pass →
    (s.out.length + s.buf.length ≤ 4 * s.params.outWords →
      exec .finalize s = .next { s with buf := [], out := s.out ++ s.buf, phase := .done, resp := .writeDone }) ∧
    (4 * s.params.outWords < s.out.length + s.buf.length →
      exec .finalize s = .next (Spec.refused s 5 0x00000005))

/-- 43_hash R181 to R183, the padded message: the buffered bytes, the marker, the fewest zero bytes that make whole
64-byte blocks, and the bit length in 8 bytes, big-endian or little-endian. -/
def Obligations.HashPaddingEndsTheBlock : Prop :=
  ∀ (md5 : Bool) (buf : List Byte) (total : BitVec 64), ∃ z len,
    hashPad md5 buf total = buf ++ [0x80] ++ List.replicate z 0 ++ len ∧ z < 64 ∧
    (hashPad md5 buf total).length % 64 = 0 ∧ len.length = 8 ∧
    ∀ j < 8, len.getD j 0 = (total * 8).extractLsb' (if md5 then 8 * j else 56 - 8 * j) 8

/-- 43_hash R181 and R182, hash `FINALIZE`: the whole next state, with the loop over the blocks of the padded message.
SHA-256 pushes its eight words big-endian; MD5 leaves its four words swapped and so pushes them little-endian first. -/
def Obligations.FinalizeHashPushesTheDigest : Prop :=
  (∀ (md5 : Bool) (n : Nat) (m : List Byte) (h : Vector Word 8), hashBlocks md5 0 m h = h ∧
    hashBlocks md5 (n + 1) m h = hashBlocks md5 n (m.drop 64)
      ((if md5 then md5Compress else sha256Compress) h (wordsAt (m.take 64) 16))) ∧
  ∀ s : State, s.phase = .active →
    (algOf s.cfg = .sha256 → s.out.length + 32 ≤ 4 * s.params.outWords → ∀ m h, m = hashPad false s.buf s.total →
      h = hashBlocks false (m.length / 64) m s.hash →
      exec .finalize s = .next
        { s with
          buf := []
          hash := h
          phase := .done
          out := s.out ++ bytesOf [h[0], h[1], h[2], h[3], h[4], h[5], h[6], h[7]]
          resp := .writeDone }) ∧
    (algOf s.cfg = .md5 → s.out.length + 16 ≤ 4 * s.params.outWords → ∀ m h, m = hashPad true s.buf s.total →
      h = hashBlocks true (m.length / 64) m s.hash →
      exec .finalize s = .next
        { s with
          buf := []
          hash := #v[swap32 h[0], swap32 h[1], swap32 h[2], swap32 h[3], h[4], h[5], h[6], h[7]]
          phase := .done
          out := s.out ++ (wordBytes h[0]).reverse ++ (wordBytes h[1]).reverse ++ (wordBytes h[2]).reverse ++
            (wordBytes h[3]).reverse
          resp := .writeDone }) ∧
    (algOf s.cfg = .sha256 → 4 * s.params.outWords < s.out.length + 32 →
      exec .finalize s = .next (Spec.refused s 5 0x00000005)) ∧
    (algOf s.cfg = .md5 → 4 * s.params.outWords < s.out.length + 16 →
      exec .finalize s = .next (Spec.refused s 5 0x00000005))

/-- 44_cipher R221 and R230, encrypt `FINALIZE` in an `ACTIVE` session, `DIR` and `PAD` read as `CFG[2]` and `CFG[4]`
(10_state R23): NoPadding refuses a partial block (code 6); room
is checked for the padded length (code 5); else everything is encrypted and the session closed. -/
def Obligations.FinalizeEncryptPadsAndCloses : Prop :=
  ∀ s : State, s.phase = .active → algOf s.cfg = .aes → s.cfg.getLsbD 2 = false →
    (s.cfg.getLsbD 4 = true → s.buf.length % 16 ≠ 0 → exec .finalize s = .next (Spec.refused s 6 0x00000005)) ∧
    (∀ d r, (s.cfg.getLsbD 4 = true → s.buf.length % 16 = 0 ∧ d = s.buf) →
      (s.cfg.getLsbD 4 = false → d = pkcs7Pad s.buf) →
      r = xform s.ctx (d.length / 16) d s.xstate →
      (4 * s.params.outWords < s.out.length + d.length →
        exec .finalize s = .next (Spec.refused s 5 0x00000005)) ∧
      (s.out.length + d.length ≤ 4 * s.params.outWords →
        exec .finalize s = .next
          { s with buf := [], out := s.out ++ r.bytes, chain := r.xs.chain, phase := .done, resp := .writeDone }))

/-- 44_cipher R222 and R224, decrypt `FINALIZE` in an `ACTIVE` session, `DIR` and `PAD` read as `CFG[2]` and `CFG[4]`
(10_state R23): partial block, then room for the length before
unpadding, then everything is decrypted, unpadded under PKCS7, and the session closed. -/
def Obligations.FinalizeDecryptUnpadsAndCloses : Prop :=
  ∀ s : State, s.phase = .active → algOf s.cfg = .aes → s.cfg.getLsbD 2 = true →
    (s.buf.length % 16 ≠ 0 → exec .finalize s = .next (Spec.refused s 6 0x00000005)) ∧
    (s.buf.length % 16 = 0 → 4 * s.params.outWords < s.out.length + s.buf.length →
      exec .finalize s = .next (Spec.refused s 5 0x00000005)) ∧
    (s.buf.length % 16 = 0 → s.out.length + s.buf.length ≤ 4 * s.params.outWords →
      ∀ r, r = xform s.ctx (s.buf.length / 16) s.buf s.xstate →
        exec .finalize s = .next
          { s with
            buf := []
            chain := r.xs.chain
            phase := .done
            out := s.out ++ (if s.cfg.getLsbD 4 then r.bytes else pkcs7Unpad r.bytes)
            resp := .writeDone })

/-- 44_cipher R223 and R224: padding adds 1 to 16 bytes of its own count up to a whole block, and unpadding what was
padded restores it; unpadding removes the last byte's count, clamped, whatever the other bytes are. -/
def Obligations.PkcsUnpadRestoresPadded : Prop :=
  (∀ x : List Byte, pkcs7Unpad (pkcs7Pad x) = x) ∧
  (∀ x : List Byte, ∃ p, 1 ≤ p ∧ p ≤ 16 ∧ pkcs7Pad x = x ++ List.replicate p (BitVec.ofNat 8 p) ∧
    (pkcs7Pad x).length % 16 = 0) ∧
  pkcs7Unpad [] = [] ∧
  (∀ (x : List Byte) (n : Byte), pkcs7Unpad (x ++ [n]) = (x ++ [n]).take (x.length + 1 - n.toNat))

/-! ### Algorithms -/

/-- 00_scope R8 and R10: byte 0 of a word is its bits [31:24]; the byte view is the bytes of the words in order and the
word view the words of the bytes, a byte past the end reading 0; the views undo each other on whole words. `swap32`
reverses the bytes of a word (R9). -/
def Obligations.ByteAndWordViewsAgree : Prop :=
  (∀ ws : List Word, wordsAt (bytesOf ws) ws.length = ws) ∧
  (∀ (s : List Byte) (n : Nat), s.length = 4 * n → bytesOf (wordsAt s n) = s) ∧
  (∀ (s : List Byte) (k j : Nat), j < 4 → byteOf (wordAt s k) j = s.getD (4 * k + j) 0) ∧
  (∀ w : Word, byteOf w 0 = w.extractLsb' 24 8 ∧ byteOf w 1 = w.extractLsb' 16 8 ∧ byteOf w 2 = w.extractLsb' 8 8 ∧
    byteOf w 3 = w.extractLsb' 0 8 ∧
    wordBytes w = [w.extractLsb' 24 8, w.extractLsb' 16 8, w.extractLsb' 8 8, w.extractLsb' 0 8] ∧
    swap32 w = w.extractLsb' 0 8 ++ w.extractLsb' 8 8 ++ w.extractLsb' 16 8 ++ w.extractLsb' 24 8) ∧
  (∀ ws : List Word, bytesOf ws = ws.flatMap wordBytes) ∧
  (∀ (s : List Byte) (n : Nat), (wordsAt s n).length = n ∧ ∀ k < n, (wordsAt s n).getD k 0 = wordAt s k)

/-- 45_aes R251 and R252: the S-box is the affine map of the field inverse, and `INV_SBOX` its inverse permutation. -/
def Obligations.SboxIsAffineOfFieldInverse : Prop :=
  ∀ x : Byte, (∃ y : Byte, (x = 0 → y = 0) ∧ (x ≠ 0 → gmul x y = 1) ∧
    sbox x = y ^^^ y.rotateLeft 1 ^^^ y.rotateLeft 2 ^^^ y.rotateLeft 3 ^^^ y.rotateLeft 4 ^^^ 0x63) ∧
    invSbox (sbox x) = x ∧ sbox (invSbox x) = x

/-- `IMC` is InvMixColumns (45_aes R254): it undoes, on every column, the MixColumns the forward tables fuse with the
S-box (R253). -/
def Obligations.ImcUndoesMixColumns : Prop :=
  ∀ a b c d : Byte,
    imc (subMix 0 (invSbox a) ^^^ subMix 1 (invSbox b) ^^^ subMix 2 (invSbox c) ^^^ subMix 3 (invSbox d)) =
      wordOf a b c d

/-- 44_cipher R225 to R228: what `CIPHER_BLOCK` outputs and leaves in the chain, by `MODE` and `DIR`; and what the
`AES_ENC` and `AES_DEC` in it are: the rounds of `CRYPT` (45_aes R262 to R264) over the tables (R253, R254), with the
known answers of R266 for the three key sizes and R264's example. -/
def Obligations.CipherBlockFollowsModeAndDirection : Prop :=
  (∀ (nr : Nat) (ks : Vector Word 60) (p : Block4),
    Spec.crypts nr (fun j => ks.getD j 0) subMix sbox p (aesEnc nr ks p)) ∧
  (∀ (nr : Nat) (iks : Vector Word 60) (q : Block4), ∃ o : Block4,
    Spec.crypts nr (fun j => iks.getD j 0) invSubMix invSbox ⟨q.w0, q.w3, q.w2, q.w1⟩ o ∧
    aesDec nr iks q = ⟨o.w0, o.w3, o.w2, o.w1⟩) ∧
  (∀ x : Byte,
    subMix 0 x = gmul (sbox x) 0x02 ++ sbox x ++ sbox x ++ gmul (sbox x) 0x03 ∧
    invSubMix 0 x = gmul (invSbox x) 0x0e ++ gmul (invSbox x) 0x09 ++ gmul (invSbox x) 0x0d ++ gmul (invSbox x) 0x0b ∧
    ∀ k < 4, subMix k x = (subMix 0 x).rotateRight (8 * k) ∧ invSubMix k x = (invSubMix 0 x).rotateRight (8 * k)) ∧
  aesEnc 10 (vectorOf 60 (keyExpand 4 Spec.knownKey)) Spec.knownPlain =
    ⟨0x69c4e0d8, 0x6a7b0430, 0xd8cdb780, 0x70b4c55a⟩ ∧
  aesEnc 12 (vectorOf 60 (keyExpand 6 Spec.knownKey)) Spec.knownPlain =
    ⟨0xdda97ca4, 0x864cdfe0, 0x6eaf70a0, 0xec0d7191⟩ ∧
  aesEnc 14 (vectorOf 60 (keyExpand 8 Spec.knownKey)) Spec.knownPlain =
    ⟨0x8ea2b7ca, 0x516745bf, 0xeafc4990, 0x4b496089⟩ ∧
  aesDec 14 (vectorOf 60 (invExpand 60 (keyExpand 8 Spec.knownKey))) ⟨0x8ea2b7ca, 0x516745bf, 0xeafc4990, 0x4b496089⟩ =
    Spec.knownPlain ∧
  ∀ (c : Ctx) (chain b : Block4),
    (c.cfg.getLsbD 3 = false → c.cfg.getLsbD 2 = false →
      (cipherBlock c chain b).output = aesEnc (rounds c.cfg) c.ks
        ⟨b.w0 ^^^ chain.w0, b.w1 ^^^ chain.w1, b.w2 ^^^ chain.w2, b.w3 ^^^ chain.w3⟩ ∧
      (cipherBlock c chain b).chain = (cipherBlock c chain b).output) ∧
    (c.cfg.getLsbD 3 = false → c.cfg.getLsbD 2 = true → ∀ d, d = aesDec (rounds c.cfg) c.iks b →
      (cipherBlock c chain b).output =
        ⟨d.w0 ^^^ chain.w0, d.w1 ^^^ chain.w1, d.w2 ^^^ chain.w2, d.w3 ^^^ chain.w3⟩ ∧
      (cipherBlock c chain b).chain = b) ∧
    (c.cfg.getLsbD 3 = true → c.cfg.getLsbD 2 = false →
      cipherBlock c chain b = ⟨aesEnc (rounds c.cfg) c.ks b, chain⟩) ∧
    (c.cfg.getLsbD 3 = true → c.cfg.getLsbD 2 = true →
      cipherBlock c chain b = ⟨aesDec (rounds c.cfg) c.iks b, chain⟩)

/-- 45_aes R265: for every key of every legal size, decryption with the inverse schedule undoes encryption with the
forward one, and the other way round. -/
def Obligations.AesDecryptInvertsEncrypt : Prop :=
  ∀ (nk : Nat) (key : List Word) (ks iks : Vector Word 60), nk = 4 ∨ nk = 6 ∨ nk = 8 → nk ≤ key.length →
    ks = vectorOf 60 (keyExpand nk key) → iks = vectorOf 60 (invExpand (4 * (nk + 7)) (keyExpand nk key)) →
    ∀ p : Block4, aesDec (nk + 6) iks (aesEnc (nk + 6) ks p) = p ∧ aesEnc (nk + 6) ks (aesDec (nk + 6) iks p) = p

/-- 44_cipher R231: a message encrypted by one `FINALIZE` and decrypted by one `FINALIZE` of a session with the same
key, chain value, mode and padding comes back exactly, provided both have room. -/
def Obligations.CipherSessionRoundTrip : Prop :=
  ∀ (e d te : State), e.phase = .active → d.phase = .active → Inv e → algOf e.cfg = .aes →
    decrypting e.cfg = false → d.cfg = e.cfg ||| 0x4 → d.ks = e.ks → d.iks = e.iks → d.chain = e.chain →
    e.out = [] → d.out = [] → d.params = e.params →
    (noPadding e.cfg = true → e.buf.length % 16 = 0) →
    exec .finalize e = .next te → te.phase = .done → d.buf = te.out →
    ∃ td, exec .finalize d = .next td ∧ td.phase = .done ∧ td.out = e.buf

/-- 42_stream R160 for one PROCESS: PROCESS and then FINALIZE leaves the same output, hash and chain as FINALIZE alone,
when both complete. The rule as written does not hold of a decrypting PKCS7 session whose last plaintext byte exceeds 16,
which FINALIZE alone lets remove more than the last block (assumption log 13): the last hypothesis leaves that out. -/
def Obligations.ProcessBeforeFinalizeChangesNothing : Prop :=
  ∀ s p t u : State, Inv s → exec .process s = .next p → p.err = s.err → p.errMulti = s.errMulti →
    exec .finalize p = .next t → t.phase = .done → s.phase = .active → exec .finalize s = .next u → u.phase = .done →
    (algOf s.cfg = .aes → decrypting s.cfg = true → noPadding s.cfg = false →
      ∀ b, (xform s.ctx (s.buf.length / 16) s.buf s.xstate).bytes.getLast? = some b → b.toNat ≤ 16) →
    t.out = u.out ∧ t.hash = u.hash ∧ t.chain = u.chain ∧ t.buf = u.buf

/-- 42_stream R160, streaming equivalence: two feeding scripts that append the same bytes, with PROCESSes anywhere, then
FINALIZE, give the same bytes in `OUT` and the same digest, when no command of either raises an error. A decrypting PKCS7
session is left out (assumption log 13). -/
def Obligations.StreamingEquivalence : Prop :=
  ∀ (s t u : State) (a b : List Instr), Inv s → s.phase = .active → s.err = false →
    ¬ (algOf s.cfg = .aes ∧ decrypting s.cfg = true ∧ noPadding s.cfg = false) →
    (∀ i ∈ a, Spec.feeding i = true) → (∀ i ∈ b, Spec.feeding i = true) →
    Spec.appendedBytes s.din a = Spec.appendedBytes s.din b →
    Spec.runInstrs (a ++ [.finalize]) s = some t → t.err = false →
    Spec.runInstrs (b ++ [.finalize]) s = some u → u.err = false →
    t.out = u.out ∧ t.hash = u.hash ∧ t.chain = u.chain

/-- 43_hash R191, the message schedule: 64 words, the block's 16 and then the recurrence. -/
def Obligations.Sha256ScheduleRecurrence : Prop :=
  ∀ m : List Word, (sha256Schedule m).length = 64 ∧
    (∀ t < 16, (sha256Schedule m).getD t 0 = m.getD t 0) ∧
    (∀ t, 16 ≤ t → t < 64 → (sha256Schedule m).getD t 0 =
      shaGamma1 ((sha256Schedule m).getD (t - 2) 0) + (sha256Schedule m).getD (t - 7) 0 +
        shaGamma0 ((sha256Schedule m).getD (t - 15) 0) + (sha256Schedule m).getD (t - 16) 0)

/-- 43_hash R193, the exact derivation: `K[i]` is the floor of the cube root of `p_i * 2^96`, mod 2^32, and
`SHA256_H0[i]` the floor of the square root of `p_i * 2^64`, mod 2^32. -/
def Obligations.Sha256ConstantsAreRoots : Prop :=
  (∀ i < 64, ∃ q : Nat, q ^ 3 ≤ Spec.primes.getD i 0 * 2 ^ 96 ∧ Spec.primes.getD i 0 * 2 ^ 96 < (q + 1) ^ 3 ∧
    sha256K.getD i 0 = BitVec.ofNat 32 q) ∧
  (∀ i : Fin 8, ∃ q : Nat, q ^ 2 ≤ Spec.primes.getD i 0 * 2 ^ 64 ∧ Spec.primes.getD i 0 * 2 ^ 64 < (q + 1) ^ 2 ∧
    sha256Init[i] = BitVec.ofNat 32 q)

/-! ### Whole-machine rules -/

/-- 44_cipher R232: no instruction but SRESET and the host's own writes changes `KEY`, `IV` or `DIN`. -/
def Obligations.OnlyHostWritesAndSresetChangeInputs : Prop :=
  ∀ (i : Instr) (s t : State), exec i s = .next t → i ≠ .sreset → i ≠ .wrCmd 0x0000000F →
    ((∀ j v, i ≠ .wrKey j v) → t.key = s.key ∧ t.keyWr = s.keyWr) ∧
    ((∀ j v, i ≠ .wrIv j v) → t.iv = s.iv ∧ t.ivWr = s.ivWr) ∧
    ((∀ v, i ≠ .wrDin v) → t.din = s.din)

/-- Only INIT and SRESET, as a row or as a written command word, change `CFG`, `KS` or `IKS`: a write of `CTRL`, `KEYi` or
`IVi` waits for the next INIT (10_state R25, R42, R43; 70_reset_and_hazards R351, R352). -/
def Obligations.OnlyInitAndSresetChangeTheLatchedSession : Prop :=
  ∀ (i : Instr) (s t : State), exec i s = .next t → i ≠ .init → i ≠ .sreset → i ≠ .wrCmd 0x00000001 →
    i ≠ .wrCmd 0x0000000F → t.cfg = s.cfg ∧ t.ks = s.ks ∧ t.iks = s.iks

/-- 10_state R34: `TOTAL` is changed by INIT (to 0), by APPEND n (by n) and by reset alone. -/
def Obligations.OnlyInitAppendAndResetChangeTotal : Prop :=
  (∀ (i : Instr) (s t : State), exec i s = .next t → t.total ≠ s.total →
    i ∈ [Instr.init, .sreset, .append1, .append2, .append3, .append4, .wrCmd 0x00000001, .wrCmd 0x0000000F,
      .wrCmd 0x00000102, .wrCmd 0x00000202, .wrCmd 0x00000302, .wrCmd 0x00000402]) ∧
  (∀ s t : State, exec .init s = .next t → t.total = s.total ∨ t.total = 0) ∧
  (∀ (n : Nat) (i : Instr) (s t : State),
    (n, i) ∈ [(1, Instr.append1), (2, .append2), (3, .append3), (4, .append4)] → exec i s = .next t →
      t.total = s.total ∨ t.total = s.total + BitVec.ofNat 64 n)

/-- 10_state R27: the transitions of `PHASE`, over all instructions. -/
def Obligations.PhaseMovesAsTheStateMachine : Prop :=
  ∀ (i : Instr) (s t : State), exec i s = .next t → t.phase ≠ s.phase →
    (t.phase = .active ∧ (i = .init ∨ i = .wrCmd 0x00000001)) ∨
    (s.phase = .active ∧ t.phase = .done ∧ (i = .finalize ∨ i = .wrCmd 0x00000005)) ∨
    (t.phase = .idle ∧ (i = .sreset ∨ i = .wrCmd 0x0000000F))

/-- Bytes pushed to `OUT` are never changed: an instruction extends `OUT`, pops its front (a read of `DOUT`), or empties
it (INIT, SRESET) (10_state R41, 44_cipher R229, 70_reset_and_hazards R354). -/
def Obligations.OutputIsFinalOncePushed : Prop :=
  ∀ (i : Instr) (s t : State), exec i s = .next t →
    (∃ l, t.out = s.out ++ l) ∨ (i = .rdDout ∧ t.out = s.out.drop 4) ∨
    (t.out = [] ∧ i ∈ [Instr.init, .sreset, .wrCmd 0x00000001, .wrCmd 0x0000000F])

/-- 20_memory R70: with `OUT` empty, PROCESS, FLUSH and FINALIZE never overflow it. The run with no error held shows
which error a command raises whatever is held (ErrorsChangeNothingButTheCapture): it is never code 5, and in an
`ACTIVE` session without a partial block that stops the command there is none and the capture stays as it was. -/
def Obligations.EmptyOutNeverOverflows : Prop :=
  ∀ (i : Instr) (s t t0 : State), i = .process ∨ i = .flush ∨ i = .finalize → Inv s → s.out = [] →
    exec i s = .next t → exec i (Spec.cleared s) = .next t0 →
    t0.errCode ≠ 5 ∧ (s.err = false → t.errCode ≠ 5) ∧
    (s.phase = .active → ¬ Spec.partialRefused i s → t0.err = false ∧
      t.err = s.err ∧ t.errMulti = s.errMulti ∧ t.errCode = s.errCode ∧ t.errInfo = s.errInfo)

/-! ### The hash compressions -/

/-- 43_hash R191, R192 and R201 to R204, both compressions whole: from the given hash words the working variables go
through 64 rounds, each as the rule writes it, and are added to the hash words. SHA-256 over its message schedule, its
constants those of Sha256ConstantsAreRoots; MD5 over the byte-reversed message words, `H[4..7]` kept (10_state R39). -/
def Obligations.HashCompressionsFollowTheirRounds : Prop :=
  (∀ (h : Vector Word 8) (m : List Word), ∃ (w : Nat → Word) (v : Nat → ShaVars),
    (∀ t < 16, w t = m.getD t 0) ∧
    (∀ t, 16 ≤ t → t < 64 → w t =
      ((w (t - 2)).rotateRight 17 ^^^ (w (t - 2)).rotateRight 19 ^^^ (w (t - 2) >>> 10)) + w (t - 7) +
        ((w (t - 15)).rotateRight 7 ^^^ (w (t - 15)).rotateRight 18 ^^^ (w (t - 15) >>> 3)) + w (t - 16)) ∧
    v 0 = { a := h[0], b := h[1], c := h[2], d := h[3], e := h[4], f := h[5], g := h[6], h := h[7] } ∧
    (∀ t < 64, v (t + 1) = Spec.sha256Step (v t) (sha256K.getD t 0) (w t)) ∧
    sha256Compress h m = #v[h[0] + (v 64).a, h[1] + (v 64).b, h[2] + (v 64).c, h[3] + (v 64).d,
      h[4] + (v 64).e, h[5] + (v 64).f, h[6] + (v 64).g, h[7] + (v 64).h]) ∧
  (∀ (h : Vector Word 8) (m : List Word), ∃ v : Nat → Md5Vars,
    v 0 = { a := h[0], b := h[1], c := h[2], d := h[3] } ∧
    (∀ i < 64, v (i + 1) = Spec.md5Next m i (v i)) ∧
    md5Compress h m = #v[h[0] + (v 64).a, h[1] + (v 64).b, h[2] + (v 64).c, h[3] + (v 64).d, h[4], h[5], h[6], h[7]])
end

