-- ==== Sys2Proof/Laws/Algorithms.lean ====
section
/-! SUPPORT. The algorithms' loops, each by its last turn, and the rotations as the library's: what a statement about
rounds numbered from the first cites. -/

namespace Sys2Proof.Machine

/-- `rotl32` is the rotation left (00_scope R9). -/
theorem rotl32_eq (x : Word) (n : Nat) (h : n < 32) : rotl32 x n = x.rotateLeft n := by
  rw [rotl32, BitVec.rotateLeft_def, Nat.mod_eq_of_lt h]

/-- `rotr32` is the rotation right (00_scope R9). -/
theorem rotr32_eq (x : Word) (n : Nat) (h : 0 < n) (h' : n < 32) : rotr32 x n = x.rotateRight n := by
  rw [rotr32, rotl32, BitVec.rotateRight_def, Nat.mod_eq_of_lt h', BitVec.or_comm, show 32 - (32 - n) = n by omega]

theorem sha256K_length : sha256K.length = 64 := by decide

/-- The SHA-256 rounds by the last one (43_hash R191). -/
theorem sha256Rounds_append (v : ShaVars) (l : List (Word × Word)) (kt wt : Word) :
    sha256Rounds v (l ++ [(kt, wt)]) = sha256Round (sha256Rounds v l) kt wt := by
  induction l generalizing v with
  | nil => rfl
  | cons x l ih => exact ih _

/-- The MD5 steps by the last one (43_hash R201). -/
theorem md5Steps_succ (x : List Word) (n i : Nat) (v : Md5Vars) :
    md5Steps x (n + 1) i v = md5Step x (i + n) (md5Steps x n i v) := by
  induction n generalizing i v with
  | zero => rfl
  | succ n ih =>
    rw [md5Steps, ih, md5Steps, show i + 1 + n = i + (n + 1) by omega]

/-- The fused AES rounds by the last one (45_aes R262). -/
theorem fusedRounds_succ (t : Nat → Byte → Word) (ks : Vector Word 60) (n k : Nat) (s : Block4) :
    fusedRounds t ks (n + 1) k s = (fusedRound t (fusedRounds t ks n k s)).xor (schedAt ks (k + 4 * n)) := by
  induction n generalizing k s with
  | zero => rfl
  | succ n ih =>
    rw [fusedRounds, ih, fusedRounds, show k + 4 + 4 * n = k + 4 * (n + 1) by omega]

end Sys2Proof.Machine
end

