-- ==== Sys2Proof/Laws/Decode.lean ====
section
/-! SUPPORT. Small facts about the decoder and the encoder. -/

namespace Sys2Proof

/-- A mapped register is found at its offset. -/
theorem regAt_offset (r : Reg) (h : r.mapped = true) : regAt r.offset = .ok r := by
  cases r <;> first | rfl | (rename_i i; revert h; revert i; decide)

/-- What stands at an offset is mapped, and the offset is its own. -/
theorem regAt_ok (a : BitVec 10) (r : Reg) (h : regAt a = .ok r) : r.mapped = true ∧ r.offset = a := by
  have all : ∀ a : Fin 1024, (match regAt (BitVec.ofFin a) with
      | .ok r => r.mapped && decide (r.offset = BitVec.ofFin a)
      | .error _ => true) = true := by decide +kernel
  have := all a.toFin
  rw [BitVec.ofFin_toFin, h] at this
  simpa using this

theorem Instr.wf_ofRead (r : Reg) : (Instr.ofRead r).wf = r.mapped := by cases r <;> rfl

theorem Instr.wf_ofWrite (v : Word) (r : Reg) : (Instr.ofWrite v r).wf = r.mapped := by cases r <;> rfl

theorem encode_ofRead (r : Reg) : encode (Instr.ofRead r) = .read r.offset := by cases r <;> rfl

theorem encode_ofWrite (v : Word) (r : Reg) : encode (Instr.ofWrite v r) = .write r.offset v := by cases r <;> rfl

theorem encode_toInstr (k : Command) : encode k.toInstr = .cmd k.word := by cases k <;> rfl

theorem decodeCommand_word (k : Command) : decodeCommand k.word = .ok k := by cases k <;> rfl

/-- A command word is its three fields. -/
theorem command_fields (c : Word) : c.toNat = (cmdRsv c).toNat * 2048 + (cmdArg c).toNat * 256 + (cmdOpc c).toNat := by
  have := c.isLt
  simp only [cmdRsv, cmdArg, cmdOpc, BitVec.extractLsb'_toNat, Nat.shiftRight_eq_div_pow]
  omega

/-- A word that decodes is the command's own word. -/
theorem decodeCommand_ok (c : Word) (k : Command) (h : decodeCommand c = .ok k) : c = k.word := by
  have hc := command_fields c
  apply BitVec.eq_of_toNat_eq
  unfold decodeCommand at h
  split at h
  · cases h
  · rename_i hr
    have hr : (cmdRsv c).toNat = 0 := by simp_all
    split at h
    case h_3 ho => split at h <;> cases h <;> simp [Command.word] <;> omega
    all_goals
      first
      | cases h
      | (rename_i ho
         unfold argZero at h
         split at h <;> cases h
         rename_i ha
         simp [ha] at hc
         simp [Command.word]
         omega)

end Sys2Proof
end

