-- ==== Sys2Proof/Laws/State.lean ====
section
/-! SUPPORT. One lemma per field per named update of State, so that no later proof unfolds a record update. -/

namespace Sys2Proof.Machine

/-! ### respond -/

@[simp] theorem State.respond_params (s : State) (r : BusResponse) : (s.respond r).params = s.params := rfl
@[simp] theorem State.respond_ctrl (s : State) (r : BusResponse) : (s.respond r).ctrl = s.ctrl := rfl
@[simp] theorem State.respond_cfg (s : State) (r : BusResponse) : (s.respond r).cfg = s.cfg := rfl
@[simp] theorem State.respond_phase (s : State) (r : BusResponse) : (s.respond r).phase = s.phase := rfl
@[simp] theorem State.respond_err (s : State) (r : BusResponse) : (s.respond r).err = s.err := rfl
@[simp] theorem State.respond_errMulti (s : State) (r : BusResponse) : (s.respond r).errMulti = s.errMulti := rfl
@[simp] theorem State.respond_errCode (s : State) (r : BusResponse) : (s.respond r).errCode = s.errCode := rfl
@[simp] theorem State.respond_errInfo (s : State) (r : BusResponse) : (s.respond r).errInfo = s.errInfo := rfl
@[simp] theorem State.respond_keyWr (s : State) (r : BusResponse) : (s.respond r).keyWr = s.keyWr := rfl
@[simp] theorem State.respond_ivWr (s : State) (r : BusResponse) : (s.respond r).ivWr = s.ivWr := rfl
@[simp] theorem State.respond_intEn (s : State) (r : BusResponse) : (s.respond r).intEn = s.intEn := rfl
@[simp] theorem State.respond_din (s : State) (r : BusResponse) : (s.respond r).din = s.din := rfl
@[simp] theorem State.respond_buf (s : State) (r : BusResponse) : (s.respond r).buf = s.buf := rfl
@[simp] theorem State.respond_out (s : State) (r : BusResponse) : (s.respond r).out = s.out := rfl
@[simp] theorem State.respond_total (s : State) (r : BusResponse) : (s.respond r).total = s.total := rfl
@[simp] theorem State.respond_key (s : State) (r : BusResponse) : (s.respond r).key = s.key := rfl
@[simp] theorem State.respond_iv (s : State) (r : BusResponse) : (s.respond r).iv = s.iv := rfl
@[simp] theorem State.respond_chain (s : State) (r : BusResponse) : (s.respond r).chain = s.chain := rfl
@[simp] theorem State.respond_hash (s : State) (r : BusResponse) : (s.respond r).hash = s.hash := rfl
@[simp] theorem State.respond_ks (s : State) (r : BusResponse) : (s.respond r).ks = s.ks := rfl
@[simp] theorem State.respond_iks (s : State) (r : BusResponse) : (s.respond r).iks = s.iks := rfl
@[simp] theorem State.respond_inputs (s : State) (r : BusResponse) : (s.respond r).inputs = s.inputs := rfl
@[simp] theorem State.respond_resp (s : State) (r : BusResponse) : (s.respond r).resp = r := rfl

/-! ### setCtrl -/

@[simp] theorem State.setCtrl_params (s : State) (v : Word) : (s.setCtrl v).params = s.params := rfl
@[simp] theorem State.setCtrl_ctrl (s : State) (v : Word) : (s.setCtrl v).ctrl = v &&& ctrlMask := rfl
@[simp] theorem State.setCtrl_cfg (s : State) (v : Word) : (s.setCtrl v).cfg = s.cfg := rfl
@[simp] theorem State.setCtrl_phase (s : State) (v : Word) : (s.setCtrl v).phase = s.phase := rfl
@[simp] theorem State.setCtrl_err (s : State) (v : Word) : (s.setCtrl v).err = s.err := rfl
@[simp] theorem State.setCtrl_errMulti (s : State) (v : Word) : (s.setCtrl v).errMulti = s.errMulti := rfl
@[simp] theorem State.setCtrl_errCode (s : State) (v : Word) : (s.setCtrl v).errCode = s.errCode := rfl
@[simp] theorem State.setCtrl_errInfo (s : State) (v : Word) : (s.setCtrl v).errInfo = s.errInfo := rfl
@[simp] theorem State.setCtrl_keyWr (s : State) (v : Word) : (s.setCtrl v).keyWr = s.keyWr := rfl
@[simp] theorem State.setCtrl_ivWr (s : State) (v : Word) : (s.setCtrl v).ivWr = s.ivWr := rfl
@[simp] theorem State.setCtrl_intEn (s : State) (v : Word) : (s.setCtrl v).intEn = s.intEn := rfl
@[simp] theorem State.setCtrl_din (s : State) (v : Word) : (s.setCtrl v).din = s.din := rfl
@[simp] theorem State.setCtrl_buf (s : State) (v : Word) : (s.setCtrl v).buf = s.buf := rfl
@[simp] theorem State.setCtrl_out (s : State) (v : Word) : (s.setCtrl v).out = s.out := rfl
@[simp] theorem State.setCtrl_total (s : State) (v : Word) : (s.setCtrl v).total = s.total := rfl
@[simp] theorem State.setCtrl_key (s : State) (v : Word) : (s.setCtrl v).key = s.key := rfl
@[simp] theorem State.setCtrl_iv (s : State) (v : Word) : (s.setCtrl v).iv = s.iv := rfl
@[simp] theorem State.setCtrl_chain (s : State) (v : Word) : (s.setCtrl v).chain = s.chain := rfl
@[simp] theorem State.setCtrl_hash (s : State) (v : Word) : (s.setCtrl v).hash = s.hash := rfl
@[simp] theorem State.setCtrl_ks (s : State) (v : Word) : (s.setCtrl v).ks = s.ks := rfl
@[simp] theorem State.setCtrl_iks (s : State) (v : Word) : (s.setCtrl v).iks = s.iks := rfl
@[simp] theorem State.setCtrl_inputs (s : State) (v : Word) : (s.setCtrl v).inputs = s.inputs := rfl
@[simp] theorem State.setCtrl_resp (s : State) (v : Word) : (s.setCtrl v).resp = s.resp := rfl

/-! ### setIntEn -/

@[simp] theorem State.setIntEn_params (s : State) (v : Word) : (s.setIntEn v).params = s.params := rfl
@[simp] theorem State.setIntEn_ctrl (s : State) (v : Word) : (s.setIntEn v).ctrl = s.ctrl := rfl
@[simp] theorem State.setIntEn_cfg (s : State) (v : Word) : (s.setIntEn v).cfg = s.cfg := rfl
@[simp] theorem State.setIntEn_phase (s : State) (v : Word) : (s.setIntEn v).phase = s.phase := rfl
@[simp] theorem State.setIntEn_err (s : State) (v : Word) : (s.setIntEn v).err = s.err := rfl
@[simp] theorem State.setIntEn_errMulti (s : State) (v : Word) : (s.setIntEn v).errMulti = s.errMulti := rfl
@[simp] theorem State.setIntEn_errCode (s : State) (v : Word) : (s.setIntEn v).errCode = s.errCode := rfl
@[simp] theorem State.setIntEn_errInfo (s : State) (v : Word) : (s.setIntEn v).errInfo = s.errInfo := rfl
@[simp] theorem State.setIntEn_keyWr (s : State) (v : Word) : (s.setIntEn v).keyWr = s.keyWr := rfl
@[simp] theorem State.setIntEn_ivWr (s : State) (v : Word) : (s.setIntEn v).ivWr = s.ivWr := rfl
@[simp] theorem State.setIntEn_intEn (s : State) (v : Word) : (s.setIntEn v).intEn = v &&& intEnMask := rfl
@[simp] theorem State.setIntEn_din (s : State) (v : Word) : (s.setIntEn v).din = s.din := rfl
@[simp] theorem State.setIntEn_buf (s : State) (v : Word) : (s.setIntEn v).buf = s.buf := rfl
@[simp] theorem State.setIntEn_out (s : State) (v : Word) : (s.setIntEn v).out = s.out := rfl
@[simp] theorem State.setIntEn_total (s : State) (v : Word) : (s.setIntEn v).total = s.total := rfl
@[simp] theorem State.setIntEn_key (s : State) (v : Word) : (s.setIntEn v).key = s.key := rfl
@[simp] theorem State.setIntEn_iv (s : State) (v : Word) : (s.setIntEn v).iv = s.iv := rfl
@[simp] theorem State.setIntEn_chain (s : State) (v : Word) : (s.setIntEn v).chain = s.chain := rfl
@[simp] theorem State.setIntEn_hash (s : State) (v : Word) : (s.setIntEn v).hash = s.hash := rfl
@[simp] theorem State.setIntEn_ks (s : State) (v : Word) : (s.setIntEn v).ks = s.ks := rfl
@[simp] theorem State.setIntEn_iks (s : State) (v : Word) : (s.setIntEn v).iks = s.iks := rfl
@[simp] theorem State.setIntEn_inputs (s : State) (v : Word) : (s.setIntEn v).inputs = s.inputs := rfl
@[simp] theorem State.setIntEn_resp (s : State) (v : Word) : (s.setIntEn v).resp = s.resp := rfl

/-! ### setDin -/

@[simp] theorem State.setDin_params (s : State) (v : Word) : (s.setDin v).params = s.params := rfl
@[simp] theorem State.setDin_ctrl (s : State) (v : Word) : (s.setDin v).ctrl = s.ctrl := rfl
@[simp] theorem State.setDin_cfg (s : State) (v : Word) : (s.setDin v).cfg = s.cfg := rfl
@[simp] theorem State.setDin_phase (s : State) (v : Word) : (s.setDin v).phase = s.phase := rfl
@[simp] theorem State.setDin_err (s : State) (v : Word) : (s.setDin v).err = s.err := rfl
@[simp] theorem State.setDin_errMulti (s : State) (v : Word) : (s.setDin v).errMulti = s.errMulti := rfl
@[simp] theorem State.setDin_errCode (s : State) (v : Word) : (s.setDin v).errCode = s.errCode := rfl
@[simp] theorem State.setDin_errInfo (s : State) (v : Word) : (s.setDin v).errInfo = s.errInfo := rfl
@[simp] theorem State.setDin_keyWr (s : State) (v : Word) : (s.setDin v).keyWr = s.keyWr := rfl
@[simp] theorem State.setDin_ivWr (s : State) (v : Word) : (s.setDin v).ivWr = s.ivWr := rfl
@[simp] theorem State.setDin_intEn (s : State) (v : Word) : (s.setDin v).intEn = s.intEn := rfl
@[simp] theorem State.setDin_din (s : State) (v : Word) : (s.setDin v).din = v := rfl
@[simp] theorem State.setDin_buf (s : State) (v : Word) : (s.setDin v).buf = s.buf := rfl
@[simp] theorem State.setDin_out (s : State) (v : Word) : (s.setDin v).out = s.out := rfl
@[simp] theorem State.setDin_total (s : State) (v : Word) : (s.setDin v).total = s.total := rfl
@[simp] theorem State.setDin_key (s : State) (v : Word) : (s.setDin v).key = s.key := rfl
@[simp] theorem State.setDin_iv (s : State) (v : Word) : (s.setDin v).iv = s.iv := rfl
@[simp] theorem State.setDin_chain (s : State) (v : Word) : (s.setDin v).chain = s.chain := rfl
@[simp] theorem State.setDin_hash (s : State) (v : Word) : (s.setDin v).hash = s.hash := rfl
@[simp] theorem State.setDin_ks (s : State) (v : Word) : (s.setDin v).ks = s.ks := rfl
@[simp] theorem State.setDin_iks (s : State) (v : Word) : (s.setDin v).iks = s.iks := rfl
@[simp] theorem State.setDin_inputs (s : State) (v : Word) : (s.setDin v).inputs = s.inputs := rfl
@[simp] theorem State.setDin_resp (s : State) (v : Word) : (s.setDin v).resp = s.resp := rfl

/-! ### setKey -/

@[simp] theorem State.setKey_params (s : State) (i : Fin 8) (v : Word) : (s.setKey i v).params = s.params := rfl
@[simp] theorem State.setKey_ctrl (s : State) (i : Fin 8) (v : Word) : (s.setKey i v).ctrl = s.ctrl := rfl
@[simp] theorem State.setKey_cfg (s : State) (i : Fin 8) (v : Word) : (s.setKey i v).cfg = s.cfg := rfl
@[simp] theorem State.setKey_phase (s : State) (i : Fin 8) (v : Word) : (s.setKey i v).phase = s.phase := rfl
@[simp] theorem State.setKey_err (s : State) (i : Fin 8) (v : Word) : (s.setKey i v).err = s.err := rfl
@[simp] theorem State.setKey_errMulti (s : State) (i : Fin 8) (v : Word) : (s.setKey i v).errMulti = s.errMulti := rfl
@[simp] theorem State.setKey_errCode (s : State) (i : Fin 8) (v : Word) : (s.setKey i v).errCode = s.errCode := rfl
@[simp] theorem State.setKey_errInfo (s : State) (i : Fin 8) (v : Word) : (s.setKey i v).errInfo = s.errInfo := rfl
@[simp] theorem State.setKey_keyWr (s : State) (i : Fin 8) (v : Word) : (s.setKey i v).keyWr = markWritten s.keyWr i := rfl
@[simp] theorem State.setKey_ivWr (s : State) (i : Fin 8) (v : Word) : (s.setKey i v).ivWr = s.ivWr := rfl
@[simp] theorem State.setKey_intEn (s : State) (i : Fin 8) (v : Word) : (s.setKey i v).intEn = s.intEn := rfl
@[simp] theorem State.setKey_din (s : State) (i : Fin 8) (v : Word) : (s.setKey i v).din = s.din := rfl
@[simp] theorem State.setKey_buf (s : State) (i : Fin 8) (v : Word) : (s.setKey i v).buf = s.buf := rfl
@[simp] theorem State.setKey_out (s : State) (i : Fin 8) (v : Word) : (s.setKey i v).out = s.out := rfl
@[simp] theorem State.setKey_total (s : State) (i : Fin 8) (v : Word) : (s.setKey i v).total = s.total := rfl
@[simp] theorem State.setKey_key (s : State) (i : Fin 8) (v : Word) : (s.setKey i v).key = s.key.set i v := rfl
@[simp] theorem State.setKey_iv (s : State) (i : Fin 8) (v : Word) : (s.setKey i v).iv = s.iv := rfl
@[simp] theorem State.setKey_chain (s : State) (i : Fin 8) (v : Word) : (s.setKey i v).chain = s.chain := rfl
@[simp] theorem State.setKey_hash (s : State) (i : Fin 8) (v : Word) : (s.setKey i v).hash = s.hash := rfl
@[simp] theorem State.setKey_ks (s : State) (i : Fin 8) (v : Word) : (s.setKey i v).ks = s.ks := rfl
@[simp] theorem State.setKey_iks (s : State) (i : Fin 8) (v : Word) : (s.setKey i v).iks = s.iks := rfl
@[simp] theorem State.setKey_inputs (s : State) (i : Fin 8) (v : Word) : (s.setKey i v).inputs = s.inputs := rfl
@[simp] theorem State.setKey_resp (s : State) (i : Fin 8) (v : Word) : (s.setKey i v).resp = s.resp := rfl

/-! ### setIv -/

@[simp] theorem State.setIv_params (s : State) (i : Fin 4) (v : Word) : (s.setIv i v).params = s.params := rfl
@[simp] theorem State.setIv_ctrl (s : State) (i : Fin 4) (v : Word) : (s.setIv i v).ctrl = s.ctrl := rfl
@[simp] theorem State.setIv_cfg (s : State) (i : Fin 4) (v : Word) : (s.setIv i v).cfg = s.cfg := rfl
@[simp] theorem State.setIv_phase (s : State) (i : Fin 4) (v : Word) : (s.setIv i v).phase = s.phase := rfl
@[simp] theorem State.setIv_err (s : State) (i : Fin 4) (v : Word) : (s.setIv i v).err = s.err := rfl
@[simp] theorem State.setIv_errMulti (s : State) (i : Fin 4) (v : Word) : (s.setIv i v).errMulti = s.errMulti := rfl
@[simp] theorem State.setIv_errCode (s : State) (i : Fin 4) (v : Word) : (s.setIv i v).errCode = s.errCode := rfl
@[simp] theorem State.setIv_errInfo (s : State) (i : Fin 4) (v : Word) : (s.setIv i v).errInfo = s.errInfo := rfl
@[simp] theorem State.setIv_keyWr (s : State) (i : Fin 4) (v : Word) : (s.setIv i v).keyWr = s.keyWr := rfl
@[simp] theorem State.setIv_ivWr (s : State) (i : Fin 4) (v : Word) : (s.setIv i v).ivWr = markWritten s.ivWr i := rfl
@[simp] theorem State.setIv_intEn (s : State) (i : Fin 4) (v : Word) : (s.setIv i v).intEn = s.intEn := rfl
@[simp] theorem State.setIv_din (s : State) (i : Fin 4) (v : Word) : (s.setIv i v).din = s.din := rfl
@[simp] theorem State.setIv_buf (s : State) (i : Fin 4) (v : Word) : (s.setIv i v).buf = s.buf := rfl
@[simp] theorem State.setIv_out (s : State) (i : Fin 4) (v : Word) : (s.setIv i v).out = s.out := rfl
@[simp] theorem State.setIv_total (s : State) (i : Fin 4) (v : Word) : (s.setIv i v).total = s.total := rfl
@[simp] theorem State.setIv_key (s : State) (i : Fin 4) (v : Word) : (s.setIv i v).key = s.key := rfl
@[simp] theorem State.setIv_iv (s : State) (i : Fin 4) (v : Word) : (s.setIv i v).iv = s.iv.set i v := rfl
@[simp] theorem State.setIv_chain (s : State) (i : Fin 4) (v : Word) : (s.setIv i v).chain = s.chain := rfl
@[simp] theorem State.setIv_hash (s : State) (i : Fin 4) (v : Word) : (s.setIv i v).hash = s.hash := rfl
@[simp] theorem State.setIv_ks (s : State) (i : Fin 4) (v : Word) : (s.setIv i v).ks = s.ks := rfl
@[simp] theorem State.setIv_iks (s : State) (i : Fin 4) (v : Word) : (s.setIv i v).iks = s.iks := rfl
@[simp] theorem State.setIv_inputs (s : State) (i : Fin 4) (v : Word) : (s.setIv i v).inputs = s.inputs := rfl
@[simp] theorem State.setIv_resp (s : State) (i : Fin 4) (v : Word) : (s.setIv i v).resp = s.resp := rfl

/-! ### setPhase -/

@[simp] theorem State.setPhase_params (s : State) (p : Phase) : (s.setPhase p).params = s.params := rfl
@[simp] theorem State.setPhase_ctrl (s : State) (p : Phase) : (s.setPhase p).ctrl = s.ctrl := rfl
@[simp] theorem State.setPhase_cfg (s : State) (p : Phase) : (s.setPhase p).cfg = s.cfg := rfl
@[simp] theorem State.setPhase_phase (s : State) (p : Phase) : (s.setPhase p).phase = p := rfl
@[simp] theorem State.setPhase_err (s : State) (p : Phase) : (s.setPhase p).err = s.err := rfl
@[simp] theorem State.setPhase_errMulti (s : State) (p : Phase) : (s.setPhase p).errMulti = s.errMulti := rfl
@[simp] theorem State.setPhase_errCode (s : State) (p : Phase) : (s.setPhase p).errCode = s.errCode := rfl
@[simp] theorem State.setPhase_errInfo (s : State) (p : Phase) : (s.setPhase p).errInfo = s.errInfo := rfl
@[simp] theorem State.setPhase_keyWr (s : State) (p : Phase) : (s.setPhase p).keyWr = s.keyWr := rfl
@[simp] theorem State.setPhase_ivWr (s : State) (p : Phase) : (s.setPhase p).ivWr = s.ivWr := rfl
@[simp] theorem State.setPhase_intEn (s : State) (p : Phase) : (s.setPhase p).intEn = s.intEn := rfl
@[simp] theorem State.setPhase_din (s : State) (p : Phase) : (s.setPhase p).din = s.din := rfl
@[simp] theorem State.setPhase_buf (s : State) (p : Phase) : (s.setPhase p).buf = s.buf := rfl
@[simp] theorem State.setPhase_out (s : State) (p : Phase) : (s.setPhase p).out = s.out := rfl
@[simp] theorem State.setPhase_total (s : State) (p : Phase) : (s.setPhase p).total = s.total := rfl
@[simp] theorem State.setPhase_key (s : State) (p : Phase) : (s.setPhase p).key = s.key := rfl
@[simp] theorem State.setPhase_iv (s : State) (p : Phase) : (s.setPhase p).iv = s.iv := rfl
@[simp] theorem State.setPhase_chain (s : State) (p : Phase) : (s.setPhase p).chain = s.chain := rfl
@[simp] theorem State.setPhase_hash (s : State) (p : Phase) : (s.setPhase p).hash = s.hash := rfl
@[simp] theorem State.setPhase_ks (s : State) (p : Phase) : (s.setPhase p).ks = s.ks := rfl
@[simp] theorem State.setPhase_iks (s : State) (p : Phase) : (s.setPhase p).iks = s.iks := rfl
@[simp] theorem State.setPhase_inputs (s : State) (p : Phase) : (s.setPhase p).inputs = s.inputs := rfl
@[simp] theorem State.setPhase_resp (s : State) (p : Phase) : (s.setPhase p).resp = s.resp := rfl

/-! ### clearError -/

@[simp] theorem State.clearError_params (s : State) : s.clearError.params = s.params := rfl
@[simp] theorem State.clearError_ctrl (s : State) : s.clearError.ctrl = s.ctrl := rfl
@[simp] theorem State.clearError_cfg (s : State) : s.clearError.cfg = s.cfg := rfl
@[simp] theorem State.clearError_phase (s : State) : s.clearError.phase = s.phase := rfl
@[simp] theorem State.clearError_err (s : State) : s.clearError.err = false := rfl
@[simp] theorem State.clearError_errMulti (s : State) : s.clearError.errMulti = false := rfl
@[simp] theorem State.clearError_errCode (s : State) : s.clearError.errCode = 0 := rfl
@[simp] theorem State.clearError_errInfo (s : State) : s.clearError.errInfo = 0 := rfl
@[simp] theorem State.clearError_keyWr (s : State) : s.clearError.keyWr = s.keyWr := rfl
@[simp] theorem State.clearError_ivWr (s : State) : s.clearError.ivWr = s.ivWr := rfl
@[simp] theorem State.clearError_intEn (s : State) : s.clearError.intEn = s.intEn := rfl
@[simp] theorem State.clearError_din (s : State) : s.clearError.din = s.din := rfl
@[simp] theorem State.clearError_buf (s : State) : s.clearError.buf = s.buf := rfl
@[simp] theorem State.clearError_out (s : State) : s.clearError.out = s.out := rfl
@[simp] theorem State.clearError_total (s : State) : s.clearError.total = s.total := rfl
@[simp] theorem State.clearError_key (s : State) : s.clearError.key = s.key := rfl
@[simp] theorem State.clearError_iv (s : State) : s.clearError.iv = s.iv := rfl
@[simp] theorem State.clearError_chain (s : State) : s.clearError.chain = s.chain := rfl
@[simp] theorem State.clearError_hash (s : State) : s.clearError.hash = s.hash := rfl
@[simp] theorem State.clearError_ks (s : State) : s.clearError.ks = s.ks := rfl
@[simp] theorem State.clearError_iks (s : State) : s.clearError.iks = s.iks := rfl
@[simp] theorem State.clearError_inputs (s : State) : s.clearError.inputs = s.inputs := rfl
@[simp] theorem State.clearError_resp (s : State) : s.clearError.resp = s.resp := rfl

/-! ### startSession -/

@[simp] theorem State.startSession_params (s : State) : s.startSession.params = s.params := rfl
@[simp] theorem State.startSession_ctrl (s : State) : s.startSession.ctrl = s.ctrl := rfl
@[simp] theorem State.startSession_cfg (s : State) : s.startSession.cfg = s.ctrl := rfl
@[simp] theorem State.startSession_phase (s : State) : s.startSession.phase = Phase.active := rfl
@[simp] theorem State.startSession_err (s : State) : s.startSession.err = s.err := rfl
@[simp] theorem State.startSession_errMulti (s : State) : s.startSession.errMulti = s.errMulti := rfl
@[simp] theorem State.startSession_errCode (s : State) : s.startSession.errCode = s.errCode := rfl
@[simp] theorem State.startSession_errInfo (s : State) : s.startSession.errInfo = s.errInfo := rfl
@[simp] theorem State.startSession_keyWr (s : State) : s.startSession.keyWr = s.keyWr := rfl
@[simp] theorem State.startSession_ivWr (s : State) : s.startSession.ivWr = s.ivWr := rfl
@[simp] theorem State.startSession_intEn (s : State) : s.startSession.intEn = s.intEn := rfl
@[simp] theorem State.startSession_din (s : State) : s.startSession.din = s.din := rfl
@[simp] theorem State.startSession_buf (s : State) : s.startSession.buf = [] := rfl
@[simp] theorem State.startSession_out (s : State) : s.startSession.out = [] := rfl
@[simp] theorem State.startSession_total (s : State) : s.startSession.total = 0 := rfl
@[simp] theorem State.startSession_key (s : State) : s.startSession.key = s.key := rfl
@[simp] theorem State.startSession_iv (s : State) : s.startSession.iv = s.iv := rfl
@[simp] theorem State.startSession_chain (s : State) : s.startSession.chain = s.chain := rfl
@[simp] theorem State.startSession_hash (s : State) : s.startSession.hash = s.hash := rfl
@[simp] theorem State.startSession_ks (s : State) : s.startSession.ks = s.ks := rfl
@[simp] theorem State.startSession_iks (s : State) : s.startSession.iks = s.iks := rfl
@[simp] theorem State.startSession_inputs (s : State) : s.startSession.inputs = s.inputs := rfl
@[simp] theorem State.startSession_resp (s : State) : s.startSession.resp = s.resp := rfl

/-! ### expandKey -/

@[simp] theorem State.expandKey_params (s : State) (nk : Nat) : (s.expandKey nk).params = s.params := by simp only [State.expandKey]
@[simp] theorem State.expandKey_ctrl (s : State) (nk : Nat) : (s.expandKey nk).ctrl = s.ctrl := by simp only [State.expandKey]
@[simp] theorem State.expandKey_cfg (s : State) (nk : Nat) : (s.expandKey nk).cfg = s.cfg := by simp only [State.expandKey]
@[simp] theorem State.expandKey_phase (s : State) (nk : Nat) : (s.expandKey nk).phase = s.phase := by simp only [State.expandKey]
@[simp] theorem State.expandKey_err (s : State) (nk : Nat) : (s.expandKey nk).err = s.err := by simp only [State.expandKey]
@[simp] theorem State.expandKey_errMulti (s : State) (nk : Nat) : (s.expandKey nk).errMulti = s.errMulti := by simp only [State.expandKey]
@[simp] theorem State.expandKey_errCode (s : State) (nk : Nat) : (s.expandKey nk).errCode = s.errCode := by simp only [State.expandKey]
@[simp] theorem State.expandKey_errInfo (s : State) (nk : Nat) : (s.expandKey nk).errInfo = s.errInfo := by simp only [State.expandKey]
@[simp] theorem State.expandKey_keyWr (s : State) (nk : Nat) : (s.expandKey nk).keyWr = s.keyWr := by simp only [State.expandKey]
@[simp] theorem State.expandKey_ivWr (s : State) (nk : Nat) : (s.expandKey nk).ivWr = s.ivWr := by simp only [State.expandKey]
@[simp] theorem State.expandKey_intEn (s : State) (nk : Nat) : (s.expandKey nk).intEn = s.intEn := by simp only [State.expandKey]
@[simp] theorem State.expandKey_din (s : State) (nk : Nat) : (s.expandKey nk).din = s.din := by simp only [State.expandKey]
@[simp] theorem State.expandKey_buf (s : State) (nk : Nat) : (s.expandKey nk).buf = s.buf := by simp only [State.expandKey]
@[simp] theorem State.expandKey_out (s : State) (nk : Nat) : (s.expandKey nk).out = s.out := by simp only [State.expandKey]
@[simp] theorem State.expandKey_total (s : State) (nk : Nat) : (s.expandKey nk).total = s.total := by simp only [State.expandKey]
@[simp] theorem State.expandKey_key (s : State) (nk : Nat) : (s.expandKey nk).key = s.key := by simp only [State.expandKey]
@[simp] theorem State.expandKey_iv (s : State) (nk : Nat) : (s.expandKey nk).iv = s.iv := by simp only [State.expandKey]
@[simp] theorem State.expandKey_chain (s : State) (nk : Nat) : (s.expandKey nk).chain = s.chain := by simp only [State.expandKey]
@[simp] theorem State.expandKey_hash (s : State) (nk : Nat) : (s.expandKey nk).hash = s.hash := by simp only [State.expandKey]
@[simp] theorem State.expandKey_ks (s : State) (nk : Nat) : (s.expandKey nk).ks = vectorOf 60 (keyExpand nk s.key.toList) := by simp only [State.expandKey]
@[simp] theorem State.expandKey_iks (s : State) (nk : Nat) : (s.expandKey nk).iks = vectorOf 60 (invExpand (rowsFor nk) (keyExpand nk s.key.toList)) := by simp only [State.expandKey]
@[simp] theorem State.expandKey_inputs (s : State) (nk : Nat) : (s.expandKey nk).inputs = s.inputs := by simp only [State.expandKey]
@[simp] theorem State.expandKey_resp (s : State) (nk : Nat) : (s.expandKey nk).resp = s.resp := by simp only [State.expandKey]

/-! ### absorb -/

@[simp] theorem State.absorb_params (s : State) (r : XResult) : (s.absorb r).params = s.params := rfl
@[simp] theorem State.absorb_ctrl (s : State) (r : XResult) : (s.absorb r).ctrl = s.ctrl := rfl
@[simp] theorem State.absorb_cfg (s : State) (r : XResult) : (s.absorb r).cfg = s.cfg := rfl
@[simp] theorem State.absorb_phase (s : State) (r : XResult) : (s.absorb r).phase = s.phase := rfl
@[simp] theorem State.absorb_err (s : State) (r : XResult) : (s.absorb r).err = s.err := rfl
@[simp] theorem State.absorb_errMulti (s : State) (r : XResult) : (s.absorb r).errMulti = s.errMulti := rfl
@[simp] theorem State.absorb_errCode (s : State) (r : XResult) : (s.absorb r).errCode = s.errCode := rfl
@[simp] theorem State.absorb_errInfo (s : State) (r : XResult) : (s.absorb r).errInfo = s.errInfo := rfl
@[simp] theorem State.absorb_keyWr (s : State) (r : XResult) : (s.absorb r).keyWr = s.keyWr := rfl
@[simp] theorem State.absorb_ivWr (s : State) (r : XResult) : (s.absorb r).ivWr = s.ivWr := rfl
@[simp] theorem State.absorb_intEn (s : State) (r : XResult) : (s.absorb r).intEn = s.intEn := rfl
@[simp] theorem State.absorb_din (s : State) (r : XResult) : (s.absorb r).din = s.din := rfl
@[simp] theorem State.absorb_buf (s : State) (r : XResult) : (s.absorb r).buf = s.buf := rfl
@[simp] theorem State.absorb_out (s : State) (r : XResult) : (s.absorb r).out = s.out ++ r.bytes := rfl
@[simp] theorem State.absorb_total (s : State) (r : XResult) : (s.absorb r).total = s.total := rfl
@[simp] theorem State.absorb_key (s : State) (r : XResult) : (s.absorb r).key = s.key := rfl
@[simp] theorem State.absorb_iv (s : State) (r : XResult) : (s.absorb r).iv = s.iv := rfl
@[simp] theorem State.absorb_chain (s : State) (r : XResult) : (s.absorb r).chain = r.xs.chain := rfl
@[simp] theorem State.absorb_hash (s : State) (r : XResult) : (s.absorb r).hash = r.xs.hash := rfl
@[simp] theorem State.absorb_ks (s : State) (r : XResult) : (s.absorb r).ks = s.ks := rfl
@[simp] theorem State.absorb_iks (s : State) (r : XResult) : (s.absorb r).iks = s.iks := rfl
@[simp] theorem State.absorb_inputs (s : State) (r : XResult) : (s.absorb r).inputs = s.inputs := rfl
@[simp] theorem State.absorb_resp (s : State) (r : XResult) : (s.absorb r).resp = s.resp := rfl

/-! ### consume -/

@[simp] theorem State.consume_params (s : State) (r : Ready) : (s.consume r).params = s.params := rfl
@[simp] theorem State.consume_ctrl (s : State) (r : Ready) : (s.consume r).ctrl = s.ctrl := rfl
@[simp] theorem State.consume_cfg (s : State) (r : Ready) : (s.consume r).cfg = s.cfg := rfl
@[simp] theorem State.consume_phase (s : State) (r : Ready) : (s.consume r).phase = s.phase := rfl
@[simp] theorem State.consume_err (s : State) (r : Ready) : (s.consume r).err = s.err := rfl
@[simp] theorem State.consume_errMulti (s : State) (r : Ready) : (s.consume r).errMulti = s.errMulti := rfl
@[simp] theorem State.consume_errCode (s : State) (r : Ready) : (s.consume r).errCode = s.errCode := rfl
@[simp] theorem State.consume_errInfo (s : State) (r : Ready) : (s.consume r).errInfo = s.errInfo := rfl
@[simp] theorem State.consume_keyWr (s : State) (r : Ready) : (s.consume r).keyWr = s.keyWr := rfl
@[simp] theorem State.consume_ivWr (s : State) (r : Ready) : (s.consume r).ivWr = s.ivWr := rfl
@[simp] theorem State.consume_intEn (s : State) (r : Ready) : (s.consume r).intEn = s.intEn := rfl
@[simp] theorem State.consume_din (s : State) (r : Ready) : (s.consume r).din = s.din := rfl
@[simp] theorem State.consume_buf (s : State) (r : Ready) : (s.consume r).buf = s.buf.drop r.nbytes := rfl
@[simp] theorem State.consume_out (s : State) (r : Ready) : (s.consume r).out = s.out ++ (xform s.ctx r.nblk (s.buf.take r.nbytes) s.xstate).bytes := rfl
@[simp] theorem State.consume_total (s : State) (r : Ready) : (s.consume r).total = s.total := rfl
@[simp] theorem State.consume_key (s : State) (r : Ready) : (s.consume r).key = s.key := rfl
@[simp] theorem State.consume_iv (s : State) (r : Ready) : (s.consume r).iv = s.iv := rfl
@[simp] theorem State.consume_chain (s : State) (r : Ready) : (s.consume r).chain = (xform s.ctx r.nblk (s.buf.take r.nbytes) s.xstate).xs.chain := rfl
@[simp] theorem State.consume_hash (s : State) (r : Ready) : (s.consume r).hash = (xform s.ctx r.nblk (s.buf.take r.nbytes) s.xstate).xs.hash := rfl
@[simp] theorem State.consume_ks (s : State) (r : Ready) : (s.consume r).ks = s.ks := rfl
@[simp] theorem State.consume_iks (s : State) (r : Ready) : (s.consume r).iks = s.iks := rfl
@[simp] theorem State.consume_inputs (s : State) (r : Ready) : (s.consume r).inputs = s.inputs := rfl
@[simp] theorem State.consume_resp (s : State) (r : Ready) : (s.consume r).resp = s.resp := rfl

/-! ### finishCipher -/

@[simp] theorem State.finishCipher_params (s : State) (d : List Byte) (post : List Byte → List Byte) : (s.finishCipher d post).params = s.params := rfl
@[simp] theorem State.finishCipher_ctrl (s : State) (d : List Byte) (post : List Byte → List Byte) : (s.finishCipher d post).ctrl = s.ctrl := rfl
@[simp] theorem State.finishCipher_cfg (s : State) (d : List Byte) (post : List Byte → List Byte) : (s.finishCipher d post).cfg = s.cfg := rfl
@[simp] theorem State.finishCipher_phase (s : State) (d : List Byte) (post : List Byte → List Byte) : (s.finishCipher d post).phase = Phase.done := rfl
@[simp] theorem State.finishCipher_err (s : State) (d : List Byte) (post : List Byte → List Byte) : (s.finishCipher d post).err = s.err := rfl
@[simp] theorem State.finishCipher_errMulti (s : State) (d : List Byte) (post : List Byte → List Byte) : (s.finishCipher d post).errMulti = s.errMulti := rfl
@[simp] theorem State.finishCipher_errCode (s : State) (d : List Byte) (post : List Byte → List Byte) : (s.finishCipher d post).errCode = s.errCode := rfl
@[simp] theorem State.finishCipher_errInfo (s : State) (d : List Byte) (post : List Byte → List Byte) : (s.finishCipher d post).errInfo = s.errInfo := rfl
@[simp] theorem State.finishCipher_keyWr (s : State) (d : List Byte) (post : List Byte → List Byte) : (s.finishCipher d post).keyWr = s.keyWr := rfl
@[simp] theorem State.finishCipher_ivWr (s : State) (d : List Byte) (post : List Byte → List Byte) : (s.finishCipher d post).ivWr = s.ivWr := rfl
@[simp] theorem State.finishCipher_intEn (s : State) (d : List Byte) (post : List Byte → List Byte) : (s.finishCipher d post).intEn = s.intEn := rfl
@[simp] theorem State.finishCipher_din (s : State) (d : List Byte) (post : List Byte → List Byte) : (s.finishCipher d post).din = s.din := rfl
@[simp] theorem State.finishCipher_buf (s : State) (d : List Byte) (post : List Byte → List Byte) : (s.finishCipher d post).buf = [] := rfl
@[simp] theorem State.finishCipher_out (s : State) (d : List Byte) (post : List Byte → List Byte) : (s.finishCipher d post).out = s.out ++ post (xform s.ctx (d.length / 16) d s.xstate).bytes := rfl
@[simp] theorem State.finishCipher_total (s : State) (d : List Byte) (post : List Byte → List Byte) : (s.finishCipher d post).total = s.total := rfl
@[simp] theorem State.finishCipher_key (s : State) (d : List Byte) (post : List Byte → List Byte) : (s.finishCipher d post).key = s.key := rfl
@[simp] theorem State.finishCipher_iv (s : State) (d : List Byte) (post : List Byte → List Byte) : (s.finishCipher d post).iv = s.iv := rfl
@[simp] theorem State.finishCipher_chain (s : State) (d : List Byte) (post : List Byte → List Byte) : (s.finishCipher d post).chain = (xform s.ctx (d.length / 16) d s.xstate).xs.chain := rfl
@[simp] theorem State.finishCipher_hash (s : State) (d : List Byte) (post : List Byte → List Byte) : (s.finishCipher d post).hash = (xform s.ctx (d.length / 16) d s.xstate).xs.hash := rfl
@[simp] theorem State.finishCipher_ks (s : State) (d : List Byte) (post : List Byte → List Byte) : (s.finishCipher d post).ks = s.ks := rfl
@[simp] theorem State.finishCipher_iks (s : State) (d : List Byte) (post : List Byte → List Byte) : (s.finishCipher d post).iks = s.iks := rfl
@[simp] theorem State.finishCipher_inputs (s : State) (d : List Byte) (post : List Byte → List Byte) : (s.finishCipher d post).inputs = s.inputs := rfl
@[simp] theorem State.finishCipher_resp (s : State) (d : List Byte) (post : List Byte → List Byte) : (s.finishCipher d post).resp = s.resp := rfl

/-! ### toReset -/

@[simp] theorem State.toReset_params (s : State) : s.toReset.params = s.params := rfl
@[simp] theorem State.toReset_ctrl (s : State) : s.toReset.ctrl = 0 := rfl
@[simp] theorem State.toReset_cfg (s : State) : s.toReset.cfg = 0 := rfl
@[simp] theorem State.toReset_phase (s : State) : s.toReset.phase = Phase.idle := rfl
@[simp] theorem State.toReset_err (s : State) : s.toReset.err = false := rfl
@[simp] theorem State.toReset_errMulti (s : State) : s.toReset.errMulti = false := rfl
@[simp] theorem State.toReset_errCode (s : State) : s.toReset.errCode = 0 := rfl
@[simp] theorem State.toReset_errInfo (s : State) : s.toReset.errInfo = 0 := rfl
@[simp] theorem State.toReset_keyWr (s : State) : s.toReset.keyWr = 0 := rfl
@[simp] theorem State.toReset_ivWr (s : State) : s.toReset.ivWr = 0 := rfl
@[simp] theorem State.toReset_intEn (s : State) : s.toReset.intEn = 0 := rfl
@[simp] theorem State.toReset_din (s : State) : s.toReset.din = 0 := rfl
@[simp] theorem State.toReset_buf (s : State) : s.toReset.buf = [] := rfl
@[simp] theorem State.toReset_out (s : State) : s.toReset.out = [] := rfl
@[simp] theorem State.toReset_total (s : State) : s.toReset.total = 0 := rfl
@[simp] theorem State.toReset_key (s : State) : s.toReset.key = Vector.replicate 8 0 := rfl
@[simp] theorem State.toReset_iv (s : State) : s.toReset.iv = Vector.replicate 4 0 := rfl
@[simp] theorem State.toReset_chain (s : State) : s.toReset.chain = Vector.replicate 4 0 := rfl
@[simp] theorem State.toReset_hash (s : State) : s.toReset.hash = Vector.replicate 8 0 := rfl
@[simp] theorem State.toReset_ks (s : State) : s.toReset.ks = Vector.replicate 60 0 := rfl
@[simp] theorem State.toReset_iks (s : State) : s.toReset.iks = Vector.replicate 60 0 := rfl
@[simp] theorem State.toReset_inputs (s : State) : s.toReset.inputs = s.inputs := rfl
@[simp] theorem State.toReset_resp (s : State) : s.toReset.resp = s.resp := rfl

/-! ### raise -/

@[simp] theorem State.raise_params (s : State) (e : ErrCode) (v : Word) : (s.raise e v).params = s.params := by
  unfold State.raise; split <;> rfl
@[simp] theorem State.raise_ctrl (s : State) (e : ErrCode) (v : Word) : (s.raise e v).ctrl = s.ctrl := by
  unfold State.raise; split <;> rfl
@[simp] theorem State.raise_cfg (s : State) (e : ErrCode) (v : Word) : (s.raise e v).cfg = s.cfg := by
  unfold State.raise; split <;> rfl
@[simp] theorem State.raise_phase (s : State) (e : ErrCode) (v : Word) : (s.raise e v).phase = s.phase := by
  unfold State.raise; split <;> rfl
@[simp] theorem State.raise_keyWr (s : State) (e : ErrCode) (v : Word) : (s.raise e v).keyWr = s.keyWr := by
  unfold State.raise; split <;> rfl
@[simp] theorem State.raise_ivWr (s : State) (e : ErrCode) (v : Word) : (s.raise e v).ivWr = s.ivWr := by
  unfold State.raise; split <;> rfl
@[simp] theorem State.raise_intEn (s : State) (e : ErrCode) (v : Word) : (s.raise e v).intEn = s.intEn := by
  unfold State.raise; split <;> rfl
@[simp] theorem State.raise_din (s : State) (e : ErrCode) (v : Word) : (s.raise e v).din = s.din := by
  unfold State.raise; split <;> rfl
@[simp] theorem State.raise_buf (s : State) (e : ErrCode) (v : Word) : (s.raise e v).buf = s.buf := by
  unfold State.raise; split <;> rfl
@[simp] theorem State.raise_out (s : State) (e : ErrCode) (v : Word) : (s.raise e v).out = s.out := by
  unfold State.raise; split <;> rfl
@[simp] theorem State.raise_total (s : State) (e : ErrCode) (v : Word) : (s.raise e v).total = s.total := by
  unfold State.raise; split <;> rfl
@[simp] theorem State.raise_key (s : State) (e : ErrCode) (v : Word) : (s.raise e v).key = s.key := by
  unfold State.raise; split <;> rfl
@[simp] theorem State.raise_iv (s : State) (e : ErrCode) (v : Word) : (s.raise e v).iv = s.iv := by
  unfold State.raise; split <;> rfl
@[simp] theorem State.raise_chain (s : State) (e : ErrCode) (v : Word) : (s.raise e v).chain = s.chain := by
  unfold State.raise; split <;> rfl
@[simp] theorem State.raise_hash (s : State) (e : ErrCode) (v : Word) : (s.raise e v).hash = s.hash := by
  unfold State.raise; split <;> rfl
@[simp] theorem State.raise_ks (s : State) (e : ErrCode) (v : Word) : (s.raise e v).ks = s.ks := by
  unfold State.raise; split <;> rfl
@[simp] theorem State.raise_iks (s : State) (e : ErrCode) (v : Word) : (s.raise e v).iks = s.iks := by
  unfold State.raise; split <;> rfl
@[simp] theorem State.raise_inputs (s : State) (e : ErrCode) (v : Word) : (s.raise e v).inputs = s.inputs := by
  unfold State.raise; split <;> rfl
@[simp] theorem State.raise_resp (s : State) (e : ErrCode) (v : Word) : (s.raise e v).resp = s.resp := by
  unfold State.raise; split <;> rfl

@[simp] theorem State.raise_err (s : State) (e : ErrCode) (v : Word) : (s.raise e v).err = true := by
  unfold State.raise; split
  · rfl
  · simpa using ‹¬s.err = false›

@[simp] theorem State.raise_errMulti (s : State) (e : ErrCode) (v : Word) :
    (s.raise e v).errMulti = (s.err || s.errMulti) := by
  unfold State.raise; split <;> simp_all

@[simp] theorem State.raise_errCode (s : State) (e : ErrCode) (v : Word) :
    (s.raise e v).errCode = if s.err then s.errCode else e.code := by
  unfold State.raise; split <;> simp_all

@[simp] theorem State.raise_errInfo (s : State) (e : ErrCode) (v : Word) :
    (s.raise e v).errInfo = if s.err then s.errInfo else v := by
  unfold State.raise; split <;> simp_all

/-! ### loadAlgorithm -/

@[simp] theorem State.loadAlgorithm_params (s : State) (c : Word) : (s.loadAlgorithm c).params = s.params := by
  unfold State.loadAlgorithm; split <;> simp
@[simp] theorem State.loadAlgorithm_ctrl (s : State) (c : Word) : (s.loadAlgorithm c).ctrl = s.ctrl := by
  unfold State.loadAlgorithm; split <;> simp
@[simp] theorem State.loadAlgorithm_cfg (s : State) (c : Word) : (s.loadAlgorithm c).cfg = s.cfg := by
  unfold State.loadAlgorithm; split <;> simp
@[simp] theorem State.loadAlgorithm_phase (s : State) (c : Word) : (s.loadAlgorithm c).phase = s.phase := by
  unfold State.loadAlgorithm; split <;> simp
@[simp] theorem State.loadAlgorithm_err (s : State) (c : Word) : (s.loadAlgorithm c).err = s.err := by
  unfold State.loadAlgorithm; split <;> simp
@[simp] theorem State.loadAlgorithm_errMulti (s : State) (c : Word) : (s.loadAlgorithm c).errMulti = s.errMulti := by
  unfold State.loadAlgorithm; split <;> simp
@[simp] theorem State.loadAlgorithm_errCode (s : State) (c : Word) : (s.loadAlgorithm c).errCode = s.errCode := by
  unfold State.loadAlgorithm; split <;> simp
@[simp] theorem State.loadAlgorithm_errInfo (s : State) (c : Word) : (s.loadAlgorithm c).errInfo = s.errInfo := by
  unfold State.loadAlgorithm; split <;> simp
@[simp] theorem State.loadAlgorithm_keyWr (s : State) (c : Word) : (s.loadAlgorithm c).keyWr = s.keyWr := by
  unfold State.loadAlgorithm; split <;> simp
@[simp] theorem State.loadAlgorithm_ivWr (s : State) (c : Word) : (s.loadAlgorithm c).ivWr = s.ivWr := by
  unfold State.loadAlgorithm; split <;> simp
@[simp] theorem State.loadAlgorithm_intEn (s : State) (c : Word) : (s.loadAlgorithm c).intEn = s.intEn := by
  unfold State.loadAlgorithm; split <;> simp
@[simp] theorem State.loadAlgorithm_din (s : State) (c : Word) : (s.loadAlgorithm c).din = s.din := by
  unfold State.loadAlgorithm; split <;> simp
@[simp] theorem State.loadAlgorithm_buf (s : State) (c : Word) : (s.loadAlgorithm c).buf = s.buf := by
  unfold State.loadAlgorithm; split <;> simp
@[simp] theorem State.loadAlgorithm_out (s : State) (c : Word) : (s.loadAlgorithm c).out = s.out := by
  unfold State.loadAlgorithm; split <;> simp
@[simp] theorem State.loadAlgorithm_total (s : State) (c : Word) : (s.loadAlgorithm c).total = s.total := by
  unfold State.loadAlgorithm; split <;> simp
@[simp] theorem State.loadAlgorithm_key (s : State) (c : Word) : (s.loadAlgorithm c).key = s.key := by
  unfold State.loadAlgorithm; split <;> simp
@[simp] theorem State.loadAlgorithm_iv (s : State) (c : Word) : (s.loadAlgorithm c).iv = s.iv := by
  unfold State.loadAlgorithm; split <;> simp
@[simp] theorem State.loadAlgorithm_inputs (s : State) (c : Word) : (s.loadAlgorithm c).inputs = s.inputs := by
  unfold State.loadAlgorithm; split <;> simp
@[simp] theorem State.loadAlgorithm_resp (s : State) (c : Word) : (s.loadAlgorithm c).resp = s.resp := by
  unfold State.loadAlgorithm; split <;> simp

/-! ### the context and the transform state -/

@[simp] theorem State.ctx_cfg (s : State) : s.ctx.cfg = s.cfg := rfl
@[simp] theorem State.ctx_ks (s : State) : s.ctx.ks = s.ks := rfl
@[simp] theorem State.ctx_iks (s : State) : s.ctx.iks = s.iks := rfl
@[simp] theorem State.xstate_hash (s : State) : s.xstate.hash = s.hash := rfl
@[simp] theorem State.xstate_chain (s : State) : s.xstate.chain = s.chain := rfl

end Sys2Proof.Machine
end

