-- ==== Sys2Proof/Laws/Outcome.lean ====
section
/-! SUPPORT. What each shared operation can answer: one lemma a later proof cites instead of unfolding it. -/

namespace Sys2Proof.Machine

@[simp] theorem readValue_next (v : Word) (s t : State) : readValue v s = .next t ↔ t = s.respond (.readData v) := by
  simp [readValue, eq_comm]

@[simp] theorem writeTo_next (s t : State) : writeTo s = .next t ↔ t = s.respond .writeDone := by
  simp [writeTo, eq_comm]

@[simp] theorem busError_next (s t : State) : busError s = .next t ↔ t = s.respond .busError := by
  simp [busError, eq_comm]

/-- A read that pops nothing answers next, and the answer is all that changes. -/
theorem readReg_next (r : Reg) (s : State) : ∃ a, readReg r s = .next (s.respond a) := by
  unfold readReg
  split
  · exact ⟨_, rfl⟩
  · exact ⟨_, rfl⟩

/-- An ignored write answers next, and the answer is all that changes. -/
theorem writeIgnored_next (r : Reg) (s : State) : ∃ a, writeIgnored r s = .next (s.respond a) := by
  unfold writeIgnored
  split
  · exact ⟨_, rfl⟩
  · exact ⟨_, rfl⟩

/-- A command always completes its write of `CMD`: with its effect, or with the capture alone. -/
theorem endCommand_next (c : Word) (s t : State) (r : Except ErrCode State) (h : endCommand c s r = .next t) :
    (∃ u, r = .ok u ∧ t = u.respond .writeDone) ∨ (∃ e, r = .error e ∧ t = (s.raise e c).respond .writeDone) := by
  cases r with
  | ok u => exact .inl ⟨u, rfl, by simpa [endCommand] using h⟩
  | error e => exact .inr ⟨e, rfl, by simpa [endCommand] using h⟩

theorem endCommand_ok (c : Word) (s u : State) : endCommand c s (.ok u) = .next (u.respond .writeDone) := rfl

theorem endCommand_error (c : Word) (s : State) (e : ErrCode) :
    endCommand c s (.error e) = .next ((s.raise e c).respond .writeDone) := rfl

/-- A read of `DOUT` pops up to four bytes, or captures the underflow. -/
theorem execRdDout_next (s t : State) (h : execRdDout s = .next t) :
    (s.out = [] ∧ t = (s.raise .outUnderflow doutMarker).respond (.readData 0)) ∨
    (s.out ≠ [] ∧ t = { s with out := s.out.drop 4, resp := .readData (wordAt s.out 0) }) := by
  unfold execRdDout at h
  split at h
  · rename_i h0
    exact .inl ⟨List.length_eq_zero_iff.mp h0, by simpa using h⟩
  · rename_i h0
    have hd : s.out.drop (min 4 s.out.length) = s.out.drop 4 := by
      by_cases hl : 4 ≤ s.out.length
      · rw [Nat.min_eq_left hl]
      · rw [Nat.min_eq_right (by omega), List.drop_length, List.drop_eq_nil_of_le (by omega)]
    refine .inr ⟨by simpa using h0, ?_⟩
    simpa [State.respond, hd] using h

/-- A write of `CMD` with a command's word is that command's meaning (60_exceptions R304). -/
theorem execWrCmd_word (k : Command) (s : State) : execWrCmd k.word s = exec k.toInstr s := by
  unfold execWrCmd
  rw [decodeCommand_word]
  cases k <;> rfl

/-- A write of `CMD` runs a command whose word it carries, or raises `ERR_ILLEGAL_CMD`. -/
theorem execWrCmd_cases (c : Word) (s : State) :
    (∃ k : Command, c = k.word ∧ execWrCmd c s = exec k.toInstr s) ∨
    (∃ e, decodeCommand c = .error e ∧ execWrCmd c s = .next ((s.raise .illegalCmd c).respond .writeDone)) := by
  cases h : decodeCommand c with
  | ok k =>
    refine .inl ⟨k, decodeCommand_ok c k h, ?_⟩
    rw [decodeCommand_ok c k h, execWrCmd_word]
  | error e => exact .inr ⟨e, rfl, by simp [execWrCmd, h, endCommand_error]⟩

end Sys2Proof.Machine
end

