-- ==== Sys2Proof/Laws/Commands.lean ====
section
/-! SUPPORT. What each command can do, guards included: if its core answers `ok t`, then these guards held and this is
`t`; an error names the guard that failed. -/

namespace Sys2Proof.Machine

/-- A guard before a result: it is passed only when it does not hold. -/
theorem guard_ok {P : Prop} [Decidable P] {e : ErrCode} {r : Except ErrCode State} {t : State} :
    (if P then .error e else r) = .ok t ↔ ¬ P ∧ r = .ok t := by
  split <;> simp_all

/-- An error is the first guard's, or comes after it. -/
theorem guard_error {P : Prop} [Decidable P] {e' e : ErrCode} {r : Except ErrCode State} :
    (if P then .error e' else r) = .error e ↔ (P ∧ e' = e) ∨ (¬ P ∧ r = .error e) := by
  split <;> simp_all

theorem appendCmd_ok (n : Nat) (s t : State) :
    appendCmd n s = .ok t ↔ s.phase = .active ∧ s.buf.length + n ≤ 4 * s.params.bufWords ∧
      { s with buf := s.buf ++ dinBytes s.din n, total := s.total + BitVec.ofNat 64 n } = t := by
  simp only [appendCmd, guard_ok, ne_eq, not_not, not_lt, Except.ok.injEq]

theorem appendCmd_error (n : Nat) (s : State) (e : ErrCode) :
    appendCmd n s = .error e ↔ (s.phase ≠ .active ∧ .sequence = e) ∨
      (s.phase = .active ∧ 4 * s.params.bufWords < s.buf.length + n ∧ .bufOverflow = e) := by
  simp only [appendCmd, guard_error, ne_eq, not_not, reduceCtorEq, and_false, or_false]

theorem processCmd_ok (s t : State) :
    processCmd s = .ok t ↔ s.phase = .active ∧
      ¬ ((algOf s.cfg).outputs = true ∧ s.outFull (ready s.cfg s.buf.length false).nbytes) ∧
      s.consume (ready s.cfg s.buf.length false) = t := by
  simp only [processCmd, guard_ok, ne_eq, not_not, Except.ok.injEq]

theorem processCmd_error (s : State) (e : ErrCode) :
    processCmd s = .error e ↔ (s.phase ≠ .active ∧ .sequence = e) ∨
      (s.phase = .active ∧ ((algOf s.cfg).outputs = true ∧ s.outFull (ready s.cfg s.buf.length false).nbytes) ∧
        .outOverflow = e) := by
  simp only [processCmd, guard_error, ne_eq, not_not, reduceCtorEq, and_false, or_false]

theorem flushCmd_ok (s t : State) :
    flushCmd s = .ok t ↔ s.phase = .active ∧ ¬ (algOf s.cfg ≠ .pass ∧ s.buf.length % blockBytes s.cfg ≠ 0) ∧
      ¬ ((algOf s.cfg).outputs = true ∧ s.outFull s.buf.length) ∧
      s.consume (ready s.cfg s.buf.length true) = t := by
  have hn : (ready s.cfg s.buf.length true).nbytes = s.buf.length := rfl
  simp only [flushCmd, guard_ok, not_not, Except.ok.injEq, hn]

theorem flushCmd_error (s : State) (e : ErrCode) :
    flushCmd s = .error e ↔ (s.phase ≠ .active ∧ .sequence = e) ∨
      (s.phase = .active ∧ ((algOf s.cfg ≠ .pass ∧ s.buf.length % blockBytes s.cfg ≠ 0) ∧ .partialBlock = e ∨
        ¬ (algOf s.cfg ≠ .pass ∧ s.buf.length % blockBytes s.cfg ≠ 0) ∧
          ((algOf s.cfg).outputs = true ∧ s.outFull s.buf.length) ∧ .outOverflow = e)) := by
  have hn : (ready s.cfg s.buf.length true).nbytes = s.buf.length := rfl
  simp only [flushCmd, guard_error, not_not, reduceCtorEq, and_false, or_false, hn, ne_eq]

theorem finalizePass_ok (s t : State) :
    finalizePass s = .ok t ↔ ∃ u, flushCmd s = .ok u ∧ u.setPhase .done = t := by
  unfold finalizePass
  cases flushCmd s <;> simp

theorem finalizePass_error (s : State) (e : ErrCode) : finalizePass s = .error e ↔ flushCmd s = .error e := by
  unfold finalizePass
  cases flushCmd s <;> simp

theorem finalizeHash_ok (md5 : Bool) (s t : State) :
    finalizeHash md5 s = .ok t ↔ s.phase = .active ∧ s.out.length + digestLen md5 ≤ 4 * s.params.outWords ∧
      { s with buf := [], hash := hashFinal md5 s, out := s.out ++ digestBytes md5 (hashFinal md5 s), phase := .done }
        = t := by
  simp only [finalizeHash, guard_ok, ne_eq, not_not, not_lt, Except.ok.injEq, State.outFull]

theorem finalizeHash_error (md5 : Bool) (s : State) (e : ErrCode) :
    finalizeHash md5 s = .error e ↔ (s.phase ≠ .active ∧ .sequence = e) ∨
      (s.phase = .active ∧ 4 * s.params.outWords < s.out.length + digestLen md5 ∧ .outOverflow = e) := by
  simp only [finalizeHash, guard_error, ne_eq, not_not, reduceCtorEq, and_false, or_false, State.outFull]

/-- What an encrypt `FINALIZE` transforms: the buffered bytes, padded under PKCS7 (44_cipher R221). -/
def encryptInput (s : State) : List Byte := if noPadding s.cfg then s.buf else pkcs7Pad s.buf

theorem finalizeEncrypt_ok (s t : State) :
    finalizeEncrypt s = .ok t ↔ s.phase = .active ∧ ¬ (noPadding s.cfg = true ∧ s.buf.length % 16 ≠ 0) ∧
      s.out.length + (encryptInput s).length ≤ 4 * s.params.outWords ∧ s.finishCipher (encryptInput s) id = t := by
  simp only [finalizeEncrypt, guard_ok, ne_eq, not_not, not_lt, Except.ok.injEq, State.outFull, encryptInput]

theorem finalizeEncrypt_error (s : State) (e : ErrCode) :
    finalizeEncrypt s = .error e ↔ (s.phase ≠ .active ∧ .sequence = e) ∨
      (s.phase = .active ∧ ((noPadding s.cfg = true ∧ s.buf.length % 16 ≠ 0) ∧ .partialBlock = e ∨
        ¬ (noPadding s.cfg = true ∧ s.buf.length % 16 ≠ 0) ∧
          4 * s.params.outWords < s.out.length + (encryptInput s).length ∧ .outOverflow = e)) := by
  simp only [finalizeEncrypt, guard_error, ne_eq, not_not, reduceCtorEq, and_false, or_false, State.outFull,
    encryptInput]

theorem finalizeDecrypt_ok (s t : State) :
    finalizeDecrypt s = .ok t ↔ s.phase = .active ∧ s.buf.length % 16 = 0 ∧
      s.out.length + s.buf.length ≤ 4 * s.params.outWords ∧
      s.finishCipher s.buf (if noPadding s.cfg then id else pkcs7Unpad) = t := by
  simp only [finalizeDecrypt, guard_ok, ne_eq, not_not, not_lt, Except.ok.injEq, State.outFull]

theorem finalizeDecrypt_error (s : State) (e : ErrCode) :
    finalizeDecrypt s = .error e ↔ (s.phase ≠ .active ∧ .sequence = e) ∨
      (s.phase = .active ∧ (s.buf.length % 16 ≠ 0 ∧ .partialBlock = e ∨
        s.buf.length % 16 = 0 ∧ 4 * s.params.outWords < s.out.length + s.buf.length ∧ .outOverflow = e)) := by
  simp only [finalizeDecrypt, guard_error, ne_eq, not_not, reduceCtorEq, and_false, or_false, State.outFull]

theorem initCmd_ok (s t : State) :
    initCmd s = .ok t ↔ configOk s.keyWr s.ivWr s.ctrl = true ∧ s.startSession.loadAlgorithm s.ctrl = t := by
  unfold initCmd
  split <;> simp_all

theorem initCmd_error (s : State) (e : ErrCode) :
    initCmd s = .error e ↔ configOk s.keyWr s.ivWr s.ctrl = false ∧ .config = e := by
  unfold initCmd
  split <;> simp_all

/-- `FINALIZE` by the latched algorithm and direction (30_encoding R85). -/
theorem finalizeCmd_cases (s : State) :
    (algOf s.cfg = .aes ∧ decrypting s.cfg = true ∧ finalizeCmd s = finalizeDecrypt s) ∨
    (algOf s.cfg = .aes ∧ decrypting s.cfg = false ∧ finalizeCmd s = finalizeEncrypt s) ∨
    (algOf s.cfg = .sha256 ∧ finalizeCmd s = finalizeHash false s) ∨
    (algOf s.cfg = .md5 ∧ finalizeCmd s = finalizeHash true s) ∨
    (algOf s.cfg = .pass ∧ finalizeCmd s = finalizePass s) := by
  unfold finalizeCmd
  cases h : algOf s.cfg <;> simp
  cases decrypting s.cfg <;> simp

end Sys2Proof.Machine
end

