-- ==== Sys2Proof/Laws/Engine.lean ====
section
/-! SUPPORT. The engine's transform as a list function: how runs of blocks compose, what they output, and how many
blocks are ready. -/

namespace Sys2Proof.Machine

theorem blockWords_pos (c : Word) : 0 < blockWords c := by
  unfold blockWords
  split
  · omega
  · cases algOf c <;> decide

theorem blockBytes_pos (c : Word) : 0 < blockBytes c := by
  have := blockWords_pos c
  unfold blockBytes
  omega

theorem xform_zero (c : Ctx) (d : List Byte) (x : XState) : xform c 0 d x = { xs := x, bytes := [] } := rfl

theorem xform_succ (c : Ctx) (n : Nat) (d : List Byte) (x : XState) :
    xform c (n + 1) d x =
      { xs := (xform c n (d.drop (blockBytes c.cfg)) (blockXform c x (d.take (blockBytes c.cfg))).xs).xs,
        bytes := (blockXform c x (d.take (blockBytes c.cfg))).bytes ++
          (xform c n (d.drop (blockBytes c.cfg)) (blockXform c x (d.take (blockBytes c.cfg))).xs).bytes } := rfl

/-- A run of blocks is its first part, then the rest from the state that part left (42_stream R154). -/
theorem xform_add (c : Ctx) (m n : Nat) (d : List Byte) (x : XState) :
    xform c (m + n) d x =
      { xs := (xform c n (d.drop (m * blockBytes c.cfg)) (xform c m d x).xs).xs,
        bytes := (xform c m d x).bytes ++
          (xform c n (d.drop (m * blockBytes c.cfg)) (xform c m d x).xs).bytes } := by
  induction m generalizing d x with
  | zero => simp [xform_zero]
  | succ m ih =>
    rw [Nat.succ_add, xform_succ, ih, xform_succ]
    simp [List.drop_drop, Nat.succ_mul, Nat.add_comm]

/-- Only the first `n` blocks of `D` reach the transform. -/
theorem xform_take (c : Ctx) (n : Nat) (d : List Byte) (x : XState) :
    xform c n (d.take (n * blockBytes c.cfg)) x = xform c n d x := by
  induction n generalizing d x with
  | zero => rfl
  | succ n ih =>
    rw [xform_succ, xform_succ, List.take_take, List.drop_take]
    have h1 : min (blockBytes c.cfg) ((n + 1) * blockBytes c.cfg) = blockBytes c.cfg := by
      rw [Nat.succ_mul]
      omega
    have h2 : (n + 1) * blockBytes c.cfg - blockBytes c.cfg = n * blockBytes c.cfg := by
      rw [Nat.succ_mul]
      omega
    rw [h1, h2, ih]

theorem blockXform_hash_bytes (c : Ctx) (x : XState) (d : List Byte) (h : (algOf c.cfg).outputs = false) :
    (blockXform c x d).bytes = [] := by
  unfold blockXform
  cases ha : algOf c.cfg <;> simp_all [Alg.outputs]

/-- A hash session's blocks have no output (42_stream R156, 43_hash R184). -/
theorem xform_hash_bytes (c : Ctx) (n : Nat) (d : List Byte) (x : XState) (h : (algOf c.cfg).outputs = false) :
    (xform c n d x).bytes = [] := by
  induction n generalizing d x with
  | zero => rfl
  | succ n ih => rw [xform_succ, blockXform_hash_bytes c x _ h, ih]; rfl

/-- A cipher or `PASS` block leaves the hash words. -/
theorem xform_keeps_hash (c : Ctx) (n : Nat) (d : List Byte) (x : XState) (h : (algOf c.cfg).outputs = true) :
    (xform c n d x).xs.hash = x.hash := by
  induction n generalizing d x with
  | zero => rfl
  | succ n ih =>
    rw [xform_succ, ih]
    unfold blockXform
    cases ha : algOf c.cfg <;> simp_all [Alg.outputs]

/-- Only a cipher block touches the chain. -/
theorem xform_keeps_chain (c : Ctx) (n : Nat) (d : List Byte) (x : XState) (h : algOf c.cfg ≠ .aes) :
    (xform c n d x).xs.chain = x.chain := by
  induction n generalizing d x with
  | zero => rfl
  | succ n ih =>
    rw [xform_succ, ih]
    unfold blockXform
    cases ha : algOf c.cfg <;> simp_all

/-- Each cipher block outputs sixteen bytes. -/
theorem xform_aes_length (c : Ctx) (n : Nat) (d : List Byte) (x : XState) (h : algOf c.cfg = .aes) :
    (xform c n d x).bytes.length = 16 * n := by
  induction n generalizing d x with
  | zero => rfl
  | succ n ih =>
    rw [xform_succ]
    simp only [List.length_append, ih]
    unfold blockXform
    rw [h]
    simp [bytesOf, Block4.words, wordBytes]
    omega

/-- `PASS` outputs exactly the bytes it takes (42_stream R155). -/
theorem xform_pass (c : Ctx) (n : Nat) (d : List Byte) (x : XState) (h : algOf c.cfg = .pass) :
    xform c n d x = { xs := x, bytes := d.take (n * blockBytes c.cfg) } := by
  induction n generalizing d x with
  | zero => simp [xform_zero]
  | succ n ih =>
    have hb : ∀ e, blockXform c x e = { xs := x, bytes := e } := by
      intro e
      unfold blockXform
      rw [h]
    rw [xform_succ, hb, ih, Nat.succ_mul, Nat.add_comm, List.take_add]

/-- Blocks ready without flush (42_stream R151). -/
theorem ready_false (cfg : Word) (len : Nat) :
    (ready cfg len false).nblk = len / blockBytes cfg - minBuf cfg ∧
      (ready cfg len false).nbytes = (len / blockBytes cfg - minBuf cfg) * blockBytes cfg := by
  simp [ready]

theorem ready_true (cfg : Word) (len : Nat) :
    (ready cfg len true).nblk = (len + blockBytes cfg - 1) / blockBytes cfg ∧ (ready cfg len true).nbytes = len :=
  ⟨rfl, rfl⟩

/-- A non-flush step never consumes more than is buffered. -/
theorem ready_false_le (cfg : Word) (len : Nat) : (ready cfg len false).nbytes ≤ len := by
  rw [(ready_false cfg len).2]
  exact le_trans (Nat.mul_le_mul_right _ (Nat.sub_le _ _)) (Nat.div_mul_le_self _ _)

/-- Enough blocks for every byte. -/
theorem le_ceil_mul (len bb : Nat) (h : 0 < bb) : len ≤ (len + bb - 1) / bb * bb := by
  have := Nat.div_add_mod (len + bb - 1) bb
  have := Nat.mod_lt (len + bb - 1) h
  rw [Nat.mul_comm]
  omega

theorem outputs_iff (c : Word) : (algOf c).outputs = true ↔ (algOf c = .aes ∨ algOf c = .pass) := by
  cases algOf c <;> simp [Alg.outputs]

/-- What a process step leaves, a hash session's output left out (42_stream R152, R153). -/
theorem consume_eq (s : State) (r : Ready) (x : XResult) (hx : x = xform s.ctx r.nblk (s.buf.take r.nbytes) s.xstate) :
    s.consume r = { s with
      buf := s.buf.drop r.nbytes
      hash := x.xs.hash
      chain := x.xs.chain
      out := s.out ++ (if algOf s.cfg = .aes ∨ algOf s.cfg = .pass then x.bytes else []) } := by
  subst hx
  unfold State.consume State.absorb
  by_cases h : algOf s.cfg = .aes ∨ algOf s.cfg = .pass
  · simp [h]
  · have : (algOf s.ctx.cfg).outputs = false := by
      rw [← outputs_iff] at h
      simpa using h
    simp [h, xform_hash_bytes _ _ _ _ this]

/-- What a cipher `FINALIZE` leaves (44_cipher R221, R222). -/
theorem finishCipher_eq (s : State) (d : List Byte) (post : List Byte → List Byte) (h : algOf s.cfg = .aes) (x : XResult)
    (hx : x = xform s.ctx (d.length / 16) d s.xstate) :
    s.finishCipher d post =
      { s with buf := [], out := s.out ++ post x.bytes, chain := x.xs.chain, phase := .done } := by
  subst hx
  simp only [State.finishCipher, State.absorb]
  rw [xform_keeps_hash]
  · rfl
  · show (algOf s.cfg).outputs = true
    rw [h]
    rfl

end Sys2Proof.Machine
end

