-- ==== Sys2Proof/Laws/Exec.lean ====
section
/-! SUPPORT. What an instruction can do, over all instructions at once: the case analysis every whole-machine claim
rests on, and the frame of the ten commands. -/

namespace Sys2Proof.Machine

/-- What a command computes before it ends: its effect or its error. -/
def commandCore : Command → State → Except ErrCode State
  | .nop, s => .ok s
  | .init, s => initCmd s
  | .append1, s => appendCmd 1 s
  | .append2, s => appendCmd 2 s
  | .append3, s => appendCmd 3 s
  | .append4, s => appendCmd 4 s
  | .process, s => processCmd s
  | .flush, s => flushCmd s
  | .finalize, s => finalizeCmd s
  | .sreset, s => .ok s.toReset

/-- A command's row is its core, ended. -/
theorem exec_command (k : Command) (s : State) : exec k.toInstr s = endCommand k.word s (commandCore k s) := by
  cases k <;> rfl

/-- An instruction is a command, as its own row or written to `CMD`. -/
def Issues (i : Instr) (k : Command) : Prop := i = k.toInstr ∨ i = .wrCmd k.word

/-- Everything an instruction can do. -/
inductive Effect (i : Instr) (s : State) : State → Prop
  /-- A read that pops nothing, an ignored write, or an unmapped index: the bus answer alone. -/
  | answer (a : BusResponse) : Effect i s (s.respond a)
  | pop (hi : i = .rdDout) (ho : s.out ≠ []) :
      Effect i s { s with out := s.out.drop 4, resp := .readData (wordAt s.out 0) }
  | underflow (hi : i = .rdDout) (ho : s.out = []) :
      Effect i s ((s.raise .outUnderflow doutMarker).respond (.readData 0))
  | setCtrl (v : Word) (hi : i = .wrCtrl v) : Effect i s ((s.setCtrl v).respond .writeDone)
  | clearError (v : Word) (hi : i = .wrStatus v) : Effect i s (s.clearError.respond .writeDone)
  | setIntEn (v : Word) (hi : i = .wrIntEn v) : Effect i s ((s.setIntEn v).respond .writeDone)
  | setDin (v : Word) (hi : i = .wrDin v) : Effect i s ((s.setDin v).respond .writeDone)
  | setKey (j : Fin 8) (v : Word) (hi : i = .wrKey j v) : Effect i s ((s.setKey j v).respond .writeDone)
  | setIv (j : Fin 4) (v : Word) (hi : i = .wrIv j v) : Effect i s ((s.setIv j v).respond .writeDone)
  | illegal (c : Word) (hi : i = .wrCmd c) : Effect i s ((s.raise .illegalCmd c).respond .writeDone)
  | command (k : Command) (u : State) (hi : Issues i k) (hk : commandCore k s = .ok u) :
      Effect i s (u.respond .writeDone)
  | failed (k : Command) (e : ErrCode) (hi : Issues i k) (hk : commandCore k s = .error e) :
      Effect i s ((s.raise e k.word).respond .writeDone)

theorem Effect.ofCommand (i : Instr) (k : Command) (s t : State) (hi : Issues i k)
    (h : endCommand k.word s (commandCore k s) = .next t) : Effect i s t := by
  rcases endCommand_next _ _ _ _ h with ⟨u, hk, rfl⟩ | ⟨e, hk, rfl⟩
  · exact .command k u hi hk
  · exact .failed k e hi hk

theorem Effect.ofRead {i : Instr} {s t : State} (r : Reg) (h : readReg r s = .next t) : Effect i s t := by
  obtain ⟨a, ha⟩ := readReg_next r s
  obtain rfl : s.respond a = t := Host.Outcome.next.inj (ha.symm.trans h)
  exact .answer a

theorem Effect.ofIgnored {i : Instr} {s t : State} (r : Reg) (h : writeIgnored r s = .next t) : Effect i s t := by
  obtain ⟨a, ha⟩ := writeIgnored_next r s
  obtain rfl : s.respond a = t := Host.Outcome.next.inj (ha.symm.trans h)
  exact .answer a

/-- A next state is one of the listed effects. -/
theorem exec_effect (i : Instr) (s t : State) (h : exec i s = .next t) : Effect i s t := by
  cases i
  case nop => exact .ofCommand _ .nop s t (.inl rfl) (by rwa [← exec_command])
  case init => exact .ofCommand _ .init s t (.inl rfl) (by rwa [← exec_command])
  case append1 => exact .ofCommand _ .append1 s t (.inl rfl) (by rwa [← exec_command])
  case append2 => exact .ofCommand _ .append2 s t (.inl rfl) (by rwa [← exec_command])
  case append3 => exact .ofCommand _ .append3 s t (.inl rfl) (by rwa [← exec_command])
  case append4 => exact .ofCommand _ .append4 s t (.inl rfl) (by rwa [← exec_command])
  case process => exact .ofCommand _ .process s t (.inl rfl) (by rwa [← exec_command])
  case flush => exact .ofCommand _ .flush s t (.inl rfl) (by rwa [← exec_command])
  case finalize => exact .ofCommand _ .finalize s t (.inl rfl) (by rwa [← exec_command])
  case sreset => exact .ofCommand _ .sreset s t (.inl rfl) (by rwa [← exec_command])
  case rdDout =>
    rcases execRdDout_next s t h with ⟨ho, rfl⟩ | ⟨ho, rfl⟩
    · exact .underflow rfl ho
    · exact .pop rfl ho
  case wrCmd c =>
    rcases execWrCmd_cases c s with ⟨k, rfl, hk⟩ | ⟨e, _, hk⟩
    · refine .ofCommand _ k s t (.inr rfl) ?_
      rw [← exec_command, ← hk]
      exact h
    · obtain rfl : t = _ := (Host.Outcome.next.inj (hk.symm.trans h)).symm
      exact .illegal c rfl
  case wrCtrl v => rw [show t = _ from ((writeTo_next _ t).1 h)]; exact .setCtrl v rfl
  case wrStatus v =>
    rw [show t = _ from ((writeTo_next _ t).1 h)]
    split
    · exact .clearError v rfl
    · exact .answer _
  case wrIntEn v => rw [show t = _ from ((writeTo_next _ t).1 h)]; exact .setIntEn v rfl
  case wrDin v => rw [show t = _ from ((writeTo_next _ t).1 h)]; exact .setDin v rfl
  case wrKey j v => rw [show t = _ from ((writeTo_next _ t).1 h)]; exact .setKey j v rfl
  case wrIv j v => rw [show t = _ from ((writeTo_next _ t).1 h)]; exact .setIv j v rfl
  case rdId => exact .ofRead .id h
  case rdCtrl => exact .ofRead .ctrl h
  case rdStatus => exact .ofRead .status h
  case rdErrInfo => exact .ofRead .errInfo h
  case rdIntEn => exact .ofRead .intEn h
  case rdCmd => exact .ofRead .cmd h
  case rdDin => exact .ofRead .din h
  case rdBufBytes => exact .ofRead .bufBytes h
  case rdOutBytes => exact .ofRead .outBytes h
  case rdTotalLo => exact .ofRead .totalLo h
  case rdTotalHi => exact .ofRead .totalHi h
  case rdCfg => exact .ofRead .cfg h
  case rdCap => exact .ofRead .cap h
  case rdKey j => exact .ofRead (.key j) h
  case rdIv j => exact .ofRead (.iv j) h
  case rdChain j => exact .ofRead (.chain j) h
  case rdHash j => exact .ofRead (.hash j) h
  case rdKs j => exact .ofRead (.ks j) h
  case rdIks j => exact .ofRead (.iks j) h
  case wrId v => exact .ofIgnored .id h
  case wrErrInfo v => exact .ofIgnored .errInfo h
  case wrDout v => exact .ofIgnored .dout h
  case wrBufBytes v => exact .ofIgnored .bufBytes h
  case wrOutBytes v => exact .ofIgnored .outBytes h
  case wrTotalLo v => exact .ofIgnored .totalLo h
  case wrTotalHi v => exact .ofIgnored .totalHi h
  case wrCfg v => exact .ofIgnored .cfg h
  case wrCap v => exact .ofIgnored .cap h
  case wrChain j v => exact .ofIgnored (.chain j) h
  case wrHash j v => exact .ofIgnored (.hash j) h
  case wrKs j v => exact .ofIgnored (.ks j) h
  case wrIks j v => exact .ofIgnored (.iks j) h

/-- What no command but SRESET changes. -/
structure SameOutside (s u : State) : Prop where
  params : u.params = s.params
  inputs : u.inputs = s.inputs
  resp : u.resp = s.resp
  ctrl : u.ctrl = s.ctrl
  err : u.err = s.err
  errMulti : u.errMulti = s.errMulti
  errCode : u.errCode = s.errCode
  errInfo : u.errInfo = s.errInfo
  keyWr : u.keyWr = s.keyWr
  ivWr : u.ivWr = s.ivWr
  intEn : u.intEn = s.intEn
  din : u.din = s.din
  key : u.key = s.key
  iv : u.iv = s.iv

/-- The session INIT latched. -/
structure SameSession (s u : State) : Prop where
  cfg : u.cfg = s.cfg
  ks : u.ks = s.ks
  iks : u.iks = s.iks

theorem SameOutside.refl (s : State) : SameOutside s s :=
  ⟨rfl, rfl, rfl, rfl, rfl, rfl, rfl, rfl, rfl, rfl, rfl, rfl, rfl, rfl⟩

theorem loadAlgorithm_outside (s : State) (c : Word) : SameOutside s (s.startSession.loadAlgorithm c) := by
  unfold State.loadAlgorithm
  cases algOf c <;>
    exact ⟨by simp, by simp, by simp, by simp, by simp, by simp, by simp, by simp, by simp, by simp, by simp, by simp,
      by simp, by simp⟩

/-- The data commands leave the latched session and everything outside the session as it is. -/
theorem appendCmd_frame (n : Nat) (s u : State) (h : appendCmd n s = .ok u) :
    SameOutside s u ∧ SameSession s u := by
  obtain ⟨_, _, rfl⟩ := (appendCmd_ok n s u).1 h
  exact ⟨⟨rfl, rfl, rfl, rfl, rfl, rfl, rfl, rfl, rfl, rfl, rfl, rfl, rfl, rfl⟩, ⟨rfl, rfl, rfl⟩⟩

theorem processCmd_frame (s u : State) (h : processCmd s = .ok u) : SameOutside s u ∧ SameSession s u := by
  obtain ⟨_, _, rfl⟩ := (processCmd_ok s u).1 h
  exact ⟨⟨rfl, rfl, rfl, rfl, rfl, rfl, rfl, rfl, rfl, rfl, rfl, rfl, rfl, rfl⟩, ⟨rfl, rfl, rfl⟩⟩

theorem flushCmd_frame (s u : State) (h : flushCmd s = .ok u) : SameOutside s u ∧ SameSession s u := by
  obtain ⟨_, _, _, rfl⟩ := (flushCmd_ok s u).1 h
  exact ⟨⟨rfl, rfl, rfl, rfl, rfl, rfl, rfl, rfl, rfl, rfl, rfl, rfl, rfl, rfl⟩, ⟨rfl, rfl, rfl⟩⟩

theorem finalizeCmd_frame (s u : State) (h : finalizeCmd s = .ok u) : SameOutside s u ∧ SameSession s u := by
  rcases finalizeCmd_cases s with ⟨_, _, hf⟩ | ⟨_, _, hf⟩ | ⟨_, hf⟩ | ⟨_, hf⟩ | ⟨_, hf⟩ <;> rw [hf] at h
  · obtain ⟨_, _, _, rfl⟩ := (finalizeDecrypt_ok s u).1 h
    exact ⟨⟨rfl, rfl, rfl, rfl, rfl, rfl, rfl, rfl, rfl, rfl, rfl, rfl, rfl, rfl⟩, ⟨rfl, rfl, rfl⟩⟩
  · obtain ⟨_, _, _, rfl⟩ := (finalizeEncrypt_ok s u).1 h
    exact ⟨⟨rfl, rfl, rfl, rfl, rfl, rfl, rfl, rfl, rfl, rfl, rfl, rfl, rfl, rfl⟩, ⟨rfl, rfl, rfl⟩⟩
  · obtain ⟨_, _, rfl⟩ := (finalizeHash_ok _ s u).1 h
    exact ⟨⟨rfl, rfl, rfl, rfl, rfl, rfl, rfl, rfl, rfl, rfl, rfl, rfl, rfl, rfl⟩, ⟨rfl, rfl, rfl⟩⟩
  · obtain ⟨_, _, rfl⟩ := (finalizeHash_ok _ s u).1 h
    exact ⟨⟨rfl, rfl, rfl, rfl, rfl, rfl, rfl, rfl, rfl, rfl, rfl, rfl, rfl, rfl⟩, ⟨rfl, rfl, rfl⟩⟩
  · obtain ⟨v, hv, rfl⟩ := (finalizePass_ok s u).1 h
    obtain ⟨_, _, _, rfl⟩ := (flushCmd_ok s v).1 hv
    exact ⟨⟨rfl, rfl, rfl, rfl, rfl, rfl, rfl, rfl, rfl, rfl, rfl, rfl, rfl, rfl⟩, ⟨rfl, rfl, rfl⟩⟩

/-- The frame of a command that succeeds: only SRESET reaches outside the session, only INIT and SRESET latch one. -/
theorem commandCore_frame (k : Command) (s u : State) (h : commandCore k s = .ok u) :
    (k ≠ .sreset → SameOutside s u) ∧ (k ≠ .sreset → k ≠ .init → SameSession s u) := by
  cases k
  case nop => cases h; exact ⟨fun _ => .refl s, fun _ _ => ⟨rfl, rfl, rfl⟩⟩
  case init =>
    obtain ⟨_, rfl⟩ := (initCmd_ok s u).1 h
    exact ⟨fun _ => loadAlgorithm_outside s _, fun _ hn => absurd rfl hn⟩
  case append1 => exact ⟨fun _ => (appendCmd_frame 1 s u h).1, fun _ _ => (appendCmd_frame 1 s u h).2⟩
  case append2 => exact ⟨fun _ => (appendCmd_frame 2 s u h).1, fun _ _ => (appendCmd_frame 2 s u h).2⟩
  case append3 => exact ⟨fun _ => (appendCmd_frame 3 s u h).1, fun _ _ => (appendCmd_frame 3 s u h).2⟩
  case append4 => exact ⟨fun _ => (appendCmd_frame 4 s u h).1, fun _ _ => (appendCmd_frame 4 s u h).2⟩
  case process => exact ⟨fun _ => (processCmd_frame s u h).1, fun _ _ => (processCmd_frame s u h).2⟩
  case flush => exact ⟨fun _ => (flushCmd_frame s u h).1, fun _ _ => (flushCmd_frame s u h).2⟩
  case finalize => exact ⟨fun _ => (finalizeCmd_frame s u h).1, fun _ _ => (finalizeCmd_frame s u h).2⟩
  case sreset => exact ⟨fun hn => absurd rfl hn, fun hn _ => absurd rfl hn⟩

/-- Everything a captured error leaves as it is. -/
theorem raise_cases (s : State) (e : ErrCode) (v : Word) :
    (s.err = false ∧ s.raise e v = { s with err := true, errCode := e.code, errInfo := v }) ∨
    (s.err = true ∧ s.raise e v = { s with errMulti := true }) := by
  unfold State.raise
  cases h : s.err
  · exact .inl ⟨rfl, by simp⟩
  · exact .inr ⟨rfl, by simp⟩

/-! ### The error capture stands in the way of nothing (60_exceptions R300) -/

/-- The state with the capture of another. -/
def State.withCapture (s c : State) : State :=
  { s with err := c.err, errMulti := c.errMulti, errCode := c.errCode, errInfo := c.errInfo }

theorem flushCmd_withCapture (s c : State) : flushCmd (s.withCapture c) = (flushCmd s).map (·.withCapture c) := by
  simp only [flushCmd, apply_ite (Except.map _)]
  rfl

/-- No command but SRESET reads the capture or changes it: whichever is held, it does the same. -/
theorem commandCore_withCapture (k : Command) (s c : State) (hk : k ≠ .sreset) :
    commandCore k (s.withCapture c) = (commandCore k s).map (·.withCapture c) := by
  cases k <;> simp only [commandCore, initCmd, appendCmd, processCmd, finalizeCmd, finalizeDecrypt, finalizeEncrypt,
    finalizeHash, finalizePass, flushCmd_withCapture]
  case sreset => exact absurd rfl hk
  case nop => rfl
  case init =>
    simp only [apply_ite (Except.map _)]
    refine ite_congr rfl (fun _ => ?_) fun _ => rfl
    simp only [Except.map, State.loadAlgorithm]
    congr 1
    show (match algOf s.ctrl with | .aes => _ | .sha256 => _ | .md5 => _ | .pass => _) = _
    cases algOf s.ctrl <;> rfl
  case finalize =>
    show (match algOf s.cfg with | .aes => _ | .sha256 => _ | .md5 => _ | .pass => _) = _
    cases algOf s.cfg
    case pass => cases flushCmd s <;> rfl
    all_goals simp only [apply_ite (Except.map _)]; rfl
  all_goals simp only [apply_ite (Except.map _)]; rfl

end Sys2Proof.Machine
end

