-- ==== Sys2Proof/Laws/PerInstr.lean ====
section
/-! SUPPORT. Facts made per instruction. `MatchesTable`: the encoding of an instruction is covered by its row of
spec/opcode_table.json (30_encoding R84, R86), whatever its operands. -/

namespace Sys2Proof.Laws

/-- A row's fixed bits: a whole command word, or a mask and a match on the 11-bit bus key `W ‖ a[9:0]`. -/
inductive TableRow where
  | cmd (word : Word)
  | bus (mask key : BitVec 11)
  deriving DecidableEq, Repr

/-- The row covers an encoded form. -/
def TableRow.covers : TableRow → Encoded → Prop
  | .cmd w, e => e = .cmd w
  | .bus mask key, e => e.busKey.map (· &&& mask) = some key

theorem TableRow.covers_read (mask key : BitVec 11) (a : BitVec 10) (h : ((0 : BitVec 1) ++ a) &&& mask = key) :
    (TableRow.bus mask key).covers (.read a) := congrArg some h

theorem TableRow.covers_write (mask key : BitVec 11) (a : BitVec 10) (v : Word)
    (h : ((1 : BitVec 1) ++ a) &&& mask = key) : (TableRow.bus mask key).covers (.write a v) := congrArg some h

/-- The row of the table for an instruction. -/
def TableRow.of : Instr → TableRow
  | .nop => .cmd 0x00000000
  | .init => .cmd 0x00000001
  | .append1 => .cmd 0x00000102
  | .append2 => .cmd 0x00000202
  | .append3 => .cmd 0x00000302
  | .append4 => .cmd 0x00000402
  | .process => .cmd 0x00000003
  | .flush => .cmd 0x00000004
  | .finalize => .cmd 0x00000005
  | .sreset => .cmd 0x0000000F
  | .rdId => .bus 0x7FF 0x000
  | .wrId _ => .bus 0x7FF 0x400
  | .rdCtrl => .bus 0x7FF 0x004
  | .wrCtrl _ => .bus 0x7FF 0x404
  | .rdStatus => .bus 0x7FF 0x008
  | .wrStatus _ => .bus 0x7FF 0x408
  | .rdErrInfo => .bus 0x7FF 0x00C
  | .wrErrInfo _ => .bus 0x7FF 0x40C
  | .rdIntEn => .bus 0x7FF 0x010
  | .wrIntEn _ => .bus 0x7FF 0x410
  | .rdCmd => .bus 0x7FF 0x014
  | .wrCmd _ => .bus 0x7FF 0x414
  | .rdDin => .bus 0x7FF 0x018
  | .wrDin _ => .bus 0x7FF 0x418
  | .rdDout => .bus 0x7FF 0x01C
  | .wrDout _ => .bus 0x7FF 0x41C
  | .rdBufBytes => .bus 0x7FF 0x020
  | .wrBufBytes _ => .bus 0x7FF 0x420
  | .rdOutBytes => .bus 0x7FF 0x024
  | .wrOutBytes _ => .bus 0x7FF 0x424
  | .rdTotalLo => .bus 0x7FF 0x028
  | .wrTotalLo _ => .bus 0x7FF 0x428
  | .rdTotalHi => .bus 0x7FF 0x02C
  | .wrTotalHi _ => .bus 0x7FF 0x42C
  | .rdCfg => .bus 0x7FF 0x030
  | .wrCfg _ => .bus 0x7FF 0x430
  | .rdCap => .bus 0x7FF 0x034
  | .wrCap _ => .bus 0x7FF 0x434
  | .rdKey _ => .bus 0x7E3 0x040
  | .wrKey _ _ => .bus 0x7E3 0x440
  | .rdIv _ => .bus 0x7F3 0x060
  | .wrIv _ _ => .bus 0x7F3 0x460
  | .rdChain _ => .bus 0x7F3 0x070
  | .wrChain _ _ => .bus 0x7F3 0x470
  | .rdHash _ => .bus 0x7E3 0x080
  | .wrHash _ _ => .bus 0x7E3 0x480
  | .rdKs _ => .bus 0x700 0x100
  | .wrKs _ _ => .bus 0x700 0x500
  | .rdIks _ => .bus 0x700 0x200
  | .wrIks _ _ => .bus 0x700 0x600

/-- The encoding of `i` has the fixed bits of its row. -/
def MatchesTable.Statement (i : Instr) : Prop := (TableRow.of i).covers (encode i)

namespace MatchesTable

theorem nop : Statement .nop := rfl
theorem init : Statement .init := rfl
theorem append1 : Statement .append1 := rfl
theorem append2 : Statement .append2 := rfl
theorem append3 : Statement .append3 := rfl
theorem append4 : Statement .append4 := rfl
theorem process : Statement .process := rfl
theorem flush : Statement .flush := rfl
theorem finalize : Statement .finalize := rfl
theorem sreset : Statement .sreset := rfl
theorem rdId : Statement .rdId := rfl
theorem wrId (v : Word) : Statement (.wrId v) := rfl
theorem rdCtrl : Statement .rdCtrl := rfl
theorem wrCtrl (v : Word) : Statement (.wrCtrl v) := rfl
theorem rdStatus : Statement .rdStatus := rfl
theorem wrStatus (v : Word) : Statement (.wrStatus v) := rfl
theorem rdErrInfo : Statement .rdErrInfo := rfl
theorem wrErrInfo (v : Word) : Statement (.wrErrInfo v) := rfl
theorem rdIntEn : Statement .rdIntEn := rfl
theorem wrIntEn (v : Word) : Statement (.wrIntEn v) := rfl
theorem rdCmd : Statement .rdCmd := rfl
theorem wrCmd (c : Word) : Statement (.wrCmd c) := rfl
theorem rdDin : Statement .rdDin := rfl
theorem wrDin (v : Word) : Statement (.wrDin v) := rfl
theorem rdDout : Statement .rdDout := rfl
theorem wrDout (v : Word) : Statement (.wrDout v) := rfl
theorem rdBufBytes : Statement .rdBufBytes := rfl
theorem wrBufBytes (v : Word) : Statement (.wrBufBytes v) := rfl
theorem rdOutBytes : Statement .rdOutBytes := rfl
theorem wrOutBytes (v : Word) : Statement (.wrOutBytes v) := rfl
theorem rdTotalLo : Statement .rdTotalLo := rfl
theorem wrTotalLo (v : Word) : Statement (.wrTotalLo v) := rfl
theorem rdTotalHi : Statement .rdTotalHi := rfl
theorem wrTotalHi (v : Word) : Statement (.wrTotalHi v) := rfl
theorem rdCfg : Statement .rdCfg := rfl
theorem wrCfg (v : Word) : Statement (.wrCfg v) := rfl
theorem rdCap : Statement .rdCap := rfl
theorem wrCap (v : Word) : Statement (.wrCap v) := rfl
theorem rdKey (i : Fin 8) : Statement (.rdKey i) :=
  TableRow.covers_read _ _ _ (by revert i; decide)
theorem wrKey (i : Fin 8) (v : Word) : Statement (.wrKey i v) :=
  TableRow.covers_write _ _ _ v (by revert i; decide)
theorem rdIv (i : Fin 4) : Statement (.rdIv i) :=
  TableRow.covers_read _ _ _ (by revert i; decide)
theorem wrIv (i : Fin 4) (v : Word) : Statement (.wrIv i v) :=
  TableRow.covers_write _ _ _ v (by revert i; decide)
theorem rdChain (i : Fin 4) : Statement (.rdChain i) :=
  TableRow.covers_read _ _ _ (by revert i; decide)
theorem wrChain (i : Fin 4) (v : Word) : Statement (.wrChain i v) :=
  TableRow.covers_write _ _ _ v (by revert i; decide)
theorem rdHash (i : Fin 8) : Statement (.rdHash i) :=
  TableRow.covers_read _ _ _ (by revert i; decide)
theorem wrHash (i : Fin 8) (v : Word) : Statement (.wrHash i v) :=
  TableRow.covers_write _ _ _ v (by revert i; decide)
theorem rdKs (i : Fin 64) : Statement (.rdKs i) :=
  TableRow.covers_read _ _ _ (by revert i; decide)
theorem wrKs (i : Fin 64) (v : Word) : Statement (.wrKs i v) :=
  TableRow.covers_write _ _ _ v (by revert i; decide)
theorem rdIks (i : Fin 64) : Statement (.rdIks i) :=
  TableRow.covers_read _ _ _ (by revert i; decide)
theorem wrIks (i : Fin 64) (v : Word) : Statement (.wrIks i v) :=
  TableRow.covers_write _ _ _ v (by revert i; decide)

end MatchesTable

end Sys2Proof.Laws
end

