-- ==== Sys2Proof/Tests/Slice0.lean ====
section
/-! SUPPORT. The model's own tests. Expected values are those of spec/95_test_vectors.md (V and E numbers in the
comments) or a rule's own example, never the model's answer; then, for each statement with hypotheses, a concrete state
and operands that meet them, at the boundaries of its clauses. -/

namespace Sys2Proof.Tests

open Sys2Proof Sys2Proof.Machine

/-! ### Helpers -/

/-- What a result's next state shows; nothing for a fault or a refusal. -/
def see {α : Type} (r : Result) (f : State → α) : Option α :=
  match r with
  | .next t => some (f t)
  | .fault _ => none
  | .refused _ => none

/-- The next state a result gives. -/
def after (r : Result) : State := (see r id).getD State.reset

theorem next_after (r : Result) (h : (see r fun _ => ()) = some ()) : r = .next (after r) := by
  cases r with
  | next t => rfl
  | fault f => cases h
  | refused f => cases h

/-- An ACTIVE session of a configuration, these bytes buffered and these in `OUT`. -/
def session (c : Word) (buf out : List Byte) : State :=
  { State.reset with
    ctrl := c
    cfg := c
    phase := .active
    buf := buf
    out := out
    total := BitVec.ofNat 64 buf.length }

/-- `n` bytes of a number, most significant first. -/
def bytesBE : Nat → Nat → List Byte
  | 0, _ => []
  | n + 1, v => BitVec.ofNat 8 (v >>> (8 * n)) :: bytesBE n v

/-- Key bytes `00..1f`. -/
def keyRamp : List Word :=
  [0x00010203, 0x04050607, 0x08090a0b, 0x0c0d0e0f, 0x10111213, 0x14151617, 0x18191a1b, 0x1c1d1e1f]

/-- IV bytes `10..1f`. -/
def ivRamp : Vector Word 4 := #v[0x10111213, 0x14151617, 0x18191a1b, 0x1c1d1e1f]

/-- Reset, then key bytes `00..` all written and `CTRL` set. -/
def keyed (c : Word) : State :=
  { State.reset with ctrl := c, key := vectorOf 8 keyRamp, keyWr := 0xFF, iv := ivRamp, ivWr := 0xF }

/-- The ACTIVE AES session of key bytes `00..`, `nk` words of them, with the IV in the chain. -/
def cipher (nk : Nat) (c : Word) (buf out : List Byte) : State :=
  { session c buf out with
    ks := vectorOf 60 (keyExpand nk keyRamp)
    iks := vectorOf 60 (invExpand (rowsFor nk) (keyExpand nk keyRamp))
    chain := ivRamp }

/-- The E1 plaintext block. -/
def e1Plain : List Byte := bytesBE 16 0x00112233445566778899aabbccddeeff

/-! ### WellFormed refuses what the encoding does not have (10_state R22; one ill-formed term for each check) -/

theorem test_wf_refuses_rdKs_60 : (Instr.rdKs 60).wf = false := by decide
theorem test_wf_refuses_wrKs_63 : (Instr.wrKs 63 0).wf = false := by decide
theorem test_wf_refuses_rdIks_60 : (Instr.rdIks 60).wf = false := by decide
theorem test_wf_refuses_wrIks_63 : (Instr.wrIks 63 0).wf = false := by decide
theorem test_mapped_refuses_ks_60 : (Reg.ks 60).mapped = false := by decide
theorem test_mapped_refuses_iks_60 : (Reg.iks 60).mapped = false := by decide
theorem test_wf_takes_the_rest : (Instr.rdKs 59).wf = true ∧ (Instr.wrIks 59 1).wf = true ∧ Instr.nop.wf = true := by
  decide

/-! ### Words written out from the encodings (30_encoding R81, R82, R84; 10_state R22) -/

theorem test_decode_commands :
    (decode (.cmd 0b00000000000000000000000000000000)).toOption = some .nop ∧
    (decode (.cmd 0b00000000000000000000000000000001)).toOption = some .init ∧
    (decode (.cmd 0b00000000000000000000000100000010)).toOption = some .append1 ∧
    (decode (.cmd 0b00000000000000000000001000000010)).toOption = some .append2 ∧
    (decode (.cmd 0b00000000000000000000001100000010)).toOption = some .append3 ∧
    (decode (.cmd 0b00000000000000000000010000000010)).toOption = some .append4 ∧
    (decode (.cmd 0b00000000000000000000000000000011)).toOption = some .process ∧
    (decode (.cmd 0b00000000000000000000000000000100)).toOption = some .flush ∧
    (decode (.cmd 0b00000000000000000000000000000101)).toOption = some .finalize ∧
    (decode (.cmd 0b00000000000000000000000000001111)).toOption = some .sreset := by decide

/-- Boundaries of the illegal classes (30_encoding R87). -/
theorem test_decode_refuses_commands :
    [0x00000006, 0x0000000E, 0x00000010, 0x000000FF, 0x00000002, 0x00000502, 0x00000702, 0x00000100, 0x0000010F,
      0x00000801, 0x80000000].all (fun c => (decode (.cmd c)).toOption = none) = true := by decide

/-- The reads, offsets of 10_state R22 written in binary. -/
theorem test_decode_reads :
    (decode (.read 0b0000000000)).toOption = some .rdId ∧ (decode (.read 0b0000000100)).toOption = some .rdCtrl ∧
    (decode (.read 0b0000001000)).toOption = some .rdStatus ∧ (decode (.read 0b0000001100)).toOption = some .rdErrInfo ∧
    (decode (.read 0b0000010000)).toOption = some .rdIntEn ∧ (decode (.read 0b0000010100)).toOption = some .rdCmd ∧
    (decode (.read 0b0000011000)).toOption = some .rdDin ∧ (decode (.read 0b0000011100)).toOption = some .rdDout ∧
    (decode (.read 0b0000100000)).toOption = some .rdBufBytes ∧
    (decode (.read 0b0000100100)).toOption = some .rdOutBytes ∧
    (decode (.read 0b0000101000)).toOption = some .rdTotalLo ∧
    (decode (.read 0b0000101100)).toOption = some .rdTotalHi ∧ (decode (.read 0b0000110000)).toOption = some .rdCfg ∧
    (decode (.read 0b0000110100)).toOption = some .rdCap ∧ (decode (.read 0b0001010100)).toOption = some (.rdKey 5) ∧
    (decode (.read 0b0001101000)).toOption = some (.rdIv 2) ∧
    (decode (.read 0b0001111100)).toOption = some (.rdChain 3) ∧
    (decode (.read 0b0010010100)).toOption = some (.rdHash 5) ∧
    (decode (.read 0b0111101100)).toOption = some (.rdKs 59) ∧
    (decode (.read 0b1000000100)).toOption = some (.rdIks 1) := by decide

/-- The writes, `W = 1` and the same offsets: the 11-bit keys of 30_encoding R82 as table words. -/
theorem test_decode_writes :
    decodeTableWord 16 0b10000000000 = some (.wrId 0) ∧ decodeTableWord 16 0b10000000100 = some (.wrCtrl 0) ∧
    decodeTableWord 16 0b10000001000 = some (.wrStatus 0) ∧ decodeTableWord 16 0b10000001100 = some (.wrErrInfo 0) ∧
    decodeTableWord 16 0b10000010000 = some (.wrIntEn 0) ∧ decodeTableWord 16 0b10000010100 = some (.wrCmd 0) ∧
    decodeTableWord 16 0b10000011000 = some (.wrDin 0) ∧ decodeTableWord 16 0b10000011100 = some (.wrDout 0) ∧
    decodeTableWord 16 0b10000100000 = some (.wrBufBytes 0) ∧ decodeTableWord 16 0b10000100100 = some (.wrOutBytes 0) ∧
    decodeTableWord 16 0b10000101000 = some (.wrTotalLo 0) ∧ decodeTableWord 16 0b10000101100 = some (.wrTotalHi 0) ∧
    decodeTableWord 16 0b10000110000 = some (.wrCfg 0) ∧ decodeTableWord 16 0b10000110100 = some (.wrCap 0) ∧
    decodeTableWord 16 0b10001000100 = some (.wrKey 1 0) ∧ decodeTableWord 16 0b10001101100 = some (.wrIv 3 0) ∧
    decodeTableWord 16 0b10001110000 = some (.wrChain 0 0) ∧ decodeTableWord 16 0b10010011100 = some (.wrHash 7 0) ∧
    decodeTableWord 16 0b10100001000 = some (.wrKs 2 0) ∧ decodeTableWord 16 0b11011101100 = some (.wrIks 59 0) := by
  decide

/-- V1.5: unmapped and misaligned offsets. -/
theorem test_decode_refuses_offsets :
    [0x038, 0x03C, 0x0A0, 0x0FC, 0x1F0, 0x1FC, 0x2F0, 0x3FC, 0x002].all
      (fun a => (decode (.read a)).toOption = none ∧ (decode (.write a 1)).toOption = none) = true := by decide

/-! ### Host reads -/

/-- V1.1. -/
theorem test_rdId : see (exec .rdId State.reset) State.resp = some (.readData 0x43545301) := by decide
/-- V1.1. -/
theorem test_rdCap : see (exec .rdCap State.reset) State.resp = some (.readData 0x00400020) := by decide
/-- V1.2. -/
theorem test_rdCtrl : see (exec .rdCtrl (after (exec (.wrCtrl 0xFFFFFFFF) State.reset))) State.resp =
    some (.readData 0x001f031f) := by decide
/-- V1.6: `STATUS` after a write of `KEY3`. -/
theorem test_rdStatus : see (exec .rdStatus (after (exec (.wrKey 3 0x12345678) State.reset))) State.resp =
    some (.readData 0x00000800) := by decide
/-- V7.8: `OUT_IE` set and a byte in `OUT`: bits 21 and 20. -/
theorem test_rdStatus_irq : see (exec .rdStatus { session 0x00010003 [] [0xAB] with intEn := 4 }) State.resp =
    some (.readData 0x00300001) := by decide
/-- V1.8. -/
theorem test_rdErrInfo : see (exec .rdErrInfo (after (exec .rdDout State.reset))) State.resp =
    some (.readData 0x8000001c) := by decide
/-- V1.3. -/
theorem test_rdIntEn : see (exec .rdIntEn (after (exec (.wrIntEn 0xFFFFFFFF) State.reset))) State.resp =
    some (.readData 0x00000007) := by decide
/-- V1.1: `CMD` reads 0. -/
theorem test_rdCmd : see (exec .rdCmd State.reset) State.resp = some (.readData 0) := by decide
/-- V1.10. -/
theorem test_rdDin : see (exec .rdDin (after (exec (.wrDin 0xCAFEF00D) State.reset))) State.resp =
    some (.readData 0xcafef00d) := by decide
/-- V1.11: five bytes in `OUT`. -/
theorem test_rdDout : see (exec .rdDout (session 0x00040003 [] [0x69, 0xc4, 0xe0, 0xd8, 0x6a]))
    (fun t => (t.resp, t.out)) = some (.readData 0x69c4e0d8, [0x6a]) := by decide
/-- V1.11: the last byte comes in the top of the word. -/
theorem test_rdDout_short : see (exec .rdDout (session 0x00040003 [] [0x6a])) (fun t => (t.resp, t.out)) =
    some (.readData 0x6a000000, []) := by decide
/-- V3.2. -/
theorem test_rdBufBytes : see (exec .rdBufBytes (session 0x00040003 [1, 2, 3, 0xAA, 0xBB] [])) State.resp =
    some (.readData 5) := by decide
/-- V1.11. -/
theorem test_rdOutBytes : see (exec .rdOutBytes (session 0x00040003 [] [0x69, 0xc4, 0xe0, 0xd8, 0x6a])) State.resp =
    some (.readData 5) := by decide
/-- 10_state R34: the low half. -/
theorem test_rdTotalLo : see (exec .rdTotalLo { State.reset with total := 0x0000000200000005 }) State.resp =
    some (.readData 5) := by decide
/-- 10_state R34: the high half. -/
theorem test_rdTotalHi : see (exec .rdTotalHi { State.reset with total := 0x0000000200000005 }) State.resp =
    some (.readData 2) := by decide
/-- V2.9: `CFG` after the hash `INIT`, whatever `CTRL` is now. -/
theorem test_rdCfg : see (exec .rdCfg { session 0x00100001 [] [] with ctrl := 0 }) State.resp =
    some (.readData 0x00100001) := by decide
/-- V1.6. -/
theorem test_rdKey : see (exec (.rdKey 3) (after (exec (.wrKey 3 0x12345678) State.reset))) State.resp =
    some (.readData 0x12345678) := by decide
/-- 10_state R37: each word at its own index. -/
theorem test_rdIv : see (exec (.rdIv 2) { State.reset with iv := #v[1, 2, 3, 4] }) State.resp =
    some (.readData 3) := by decide
/-- 10_state R38. -/
theorem test_rdChain : see (exec (.rdChain 3) { State.reset with chain := #v[1, 2, 3, 4] }) State.resp =
    some (.readData 4) := by decide
/-- V2.3. -/
theorem test_rdHash : see (exec (.rdHash 7) { State.reset with hash := sha256Init }) State.resp =
    some (.readData 0x5be0cd19) := by decide
/-- V2.5: `KS43` and, past the schedule, `KS44`. -/
theorem test_rdKs : see (exec (.rdKs 43) (cipher 4 0x118 [] [])) State.resp = some (.readData 0x4d2b30c5) ∧
    see (exec (.rdKs 44) (cipher 4 0x118 [] [])) State.resp = some (.readData 0) := by decide +kernel
/-- V2.5: `IKS0` and `IKS43`. -/
theorem test_rdIks : see (exec (.rdIks 0) (cipher 4 0x118 [] [])) State.resp = some (.readData 0x13111d7f) ∧
    see (exec (.rdIks 43) (cipher 4 0x118 [] [])) State.resp = some (.readData 0x04050607) := by decide +kernel

/-! ### Host writes -/

/-- V1.2. -/
theorem test_wrCtrl : see (exec (.wrCtrl 0xFFFFFFFF) State.reset) (fun t => (t.ctrl, t.cfg)) =
    some (0x001f031f, 0) := by decide
/-- V1.9: every bit but bit 2 does nothing. -/
theorem test_wrStatus_ignored : see (exec (.wrStatus 0xFFFFFFFB) (after (exec .rdDout State.reset))) statusWord =
    some 0x00000074 := by decide
/-- V1.9: bit 2 clears. -/
theorem test_wrStatus_clears : see (exec (.wrStatus 4) (after (exec .rdDout State.reset)))
    (fun t => (statusWord t, t.errInfo)) = some (0, 0) := by decide
/-- V1.3. -/
theorem test_wrIntEn : see (exec (.wrIntEn 0xFFFFFFFF) State.reset) State.intEn = some 7 := by decide
/-- V1.10: `DIN` is stored and nothing is appended. -/
theorem test_wrDin : see (exec (.wrDin 0xCAFEF00D) State.reset) (fun t => (t.din, t.buf)) =
    some (0xcafef00d, []) := by decide
/-- 40_host_access R103's example. -/
theorem test_wrKey : see (exec (.wrKey 0 0x00010203) State.reset) (fun t => (t.key[0], statusWord t)) =
    some (0x00010203, 0x00000100) := by decide
/-- V1.7, its last write. -/
theorem test_wrIv : see (exec (.wrIv 3 4) { State.reset with ivWr := 7 }) (fun t => (t.iv[3], statusWord t)) =
    some (4, 0x000f0000) := by decide
/-- V7.1: the decode is before the phase. -/
theorem test_wrCmd_illegal : see (exec (.wrCmd 0x00000006) State.reset) (fun t => (statusWord t, t.errInfo)) =
    some (0x00000014, 0x00000006) := by decide
/-- V2.2: the word 1 is `INIT`. -/
theorem test_wrCmd_init : see (exec (.wrCmd 0x00000001) State.reset) (fun t => (statusWord t, t.errInfo)) =
    some (0x00000024, 0x00000001) := by decide
/-- V1.4 and 40_host_access R110: each write of a read-only register completes and leaves the state as it was. -/
theorem test_readOnly_writes :
    [Instr.wrId 0, .wrErrInfo 1, .wrDout 1, .wrBufBytes 5, .wrOutBytes 5, .wrTotalLo 1, .wrTotalHi 1, .wrCfg 1, .wrCap 1,
      .wrChain 3 1, .wrHash 0 0x12345678, .wrKs 0 1, .wrIks 59 1].all
      (fun i => see (exec i State.reset) id = some { State.reset with resp := .writeDone }) = true := by decide +kernel
/-- V1.5: 0x1F0 and 0x2F0, the indexes 60. -/
theorem test_unmapped_index : see (exec (.rdKs 60) State.reset) State.resp = some .busError ∧
    see (exec (.wrIks 60 1) State.reset) State.resp = some .busError := by decide

/-! ### Session commands -/

/-- V2.1. -/
theorem test_nop : see (exec .nop State.reset) statusWord = some 0 := by decide
/-- V2.5: AES-128, `KS4`, `KS43`, `KS44`, `IKS0`, `IKS43`, `STATUS` and `CFG`. -/
theorem test_init_aes : see (exec .init { keyed 0x118 with keyWr := 0x0F, ivWr := 0 })
    (fun t => ([t.ks[4], t.ks[43], t.ks[44], t.iks[0], t.iks[43], t.cfg, statusWord t])) =
    some [0xd6aa74fd, 0x4d2b30c5, 0, 0x13111d7f, 0x04050607, 0x118, 0x00000f01] := by decide +kernel
/-- V2.8: CBC needs the IV. -/
theorem test_init_needs_iv : see (exec .init { keyed 0 with ivWr := 7 }) (fun t => (statusWord t, t.errInfo)) =
    some (0x0007ff24, 1) := by decide
/-- V2.15. -/
theorem test_sreset : see (exec .sreset (cipher 4 0x118 [1] [2])) (fun t => (statusWord t, t.ks[4], t.ctrl, t.cfg)) =
    some (0, 0, 0, 0) := by decide +kernel

/-! ### Streaming commands -/

/-- 40_host_access R107's example, its first byte. -/
theorem test_append1 : see (exec .append1 { session 0x00040003 [] [] with din := 0x61626300 })
    (fun t => (t.buf, t.total)) = some ([0x61], 1) := by decide
/-- V3.2. -/
theorem test_append2 : see (exec .append2 { session 0x00040003 [1, 2, 3] [] with din := 0xAABBCCDD })
    (fun t => (t.buf, t.total)) = some ([1, 2, 3, 0xAA, 0xBB], 5) := by decide
/-- 40_host_access R107's example. -/
theorem test_append3 : see (exec .append3 { session 0x00040003 [] [] with din := 0x61626300 })
    (fun t => (t.buf, t.total)) = some ([0x61, 0x62, 0x63], 3) := by decide
/-- 42_stream R150 for the whole word. -/
theorem test_append4 : see (exec .append4 { session 0x00040003 [] [] with din := 0x01020304 })
    (fun t => (t.buf, t.total)) = some ([1, 2, 3, 4], 4) := by decide
/-- V3.1. -/
theorem test_append1_idle : see (exec .append1 State.reset) (fun t => (statusWord t, t.errInfo)) =
    some (0x00000034, 0x00000102) := by decide
/-- V3.4: `BUF` full. -/
theorem test_append1_full : see (exec .append1 (session 0x00100003 (List.replicate 128 0) []))
    (fun t => (statusWord t, t.buf.length)) = some (0x00000045, 128) := by decide +kernel
/-- V3.5: 21 bytes, one-word remainder kept. -/
theorem test_process : see (exec .process (session 0x00040003 (bytesBE 21 0x000102030405060708090a0b0c0d0e0f1011121314) []))
    (fun t => (t.buf.length, t.out)) = some (5, bytesBE 16 0x000102030405060708090a0b0c0d0e0f) := by decide +kernel
/-- V3.8: the retained block. -/
theorem test_process_retains : see (exec .process (cipher 8 0x1c (List.replicate 16 0) []))
    (fun t => (t.buf.length, t.out.length)) = some (16, 0) := by decide +kernel
/-- V3.6. -/
theorem test_flush : see (exec .flush (session 0x00040003 (bytesBE 21 0x000102030405060708090a0b0c0d0e0f1011121314) []))
    (fun t => (t.buf, t.out)) = some ([], bytesBE 21 0x000102030405060708090a0b0c0d0e0f1011121314) := by decide +kernel
/-- V3.15: a partial block in a hash session. -/
theorem test_flush_partial : see (exec .flush (session 0x00000001 (List.replicate 70 0) []))
    (fun t => (statusWord t, t.buf.length)) = some (0x00000065, 0x46) := by decide +kernel

/-! ### FINALIZE, one test for each form, and the algorithms -/

/-- V3.11. -/
theorem test_finalize_pass : see (exec .finalize (session 0x00020003 [1, 2, 3] [])) (fun t => (t.out, statusWord t)) =
    some ([1, 2, 3], 0x00100002) := by decide
/-- V4, SHA-256 of "abc". -/
theorem test_finalize_sha256 : see (exec .finalize { session 0x1 [0x61, 0x62, 0x63] [] with hash := sha256Init })
    State.out = some (bytesBE 32 0xba7816bf8f01cfea414140de5dae2223b00361a396177a9cb410ff61f20015ad) := by
  decide +kernel
/-- V4, SHA-256 of 56 times "a": two blocks of padding. -/
theorem test_finalize_sha256_two : see (exec .finalize { session 0x1 (List.replicate 56 0x61) [] with hash := sha256Init })
    State.out = some (bytesBE 32 0xb35439a4ac6f0948b6d6f9e3c6af0f5f590ce20f1bde7090ef7970686ec6738a) := by
  decide +kernel
/-- V4, MD5 of "abc", and the swapped `HASH0`. -/
theorem test_finalize_md5 : see (exec .finalize { session 0x2 [0x61, 0x62, 0x63] [] with hash := md5Init })
    (fun t => (t.out, t.hash[0])) = some (bytesBE 16 0x900150983cd24fb0d6963f7d28e17f72, 0x90015098) := by
  decide +kernel
/-- V4, MD5 of 55 times "a". -/
theorem test_finalize_md5_55 : see (exec .finalize { session 0x2 (List.replicate 55 0x61) [] with hash := md5Init })
    State.out = some (bytesBE 16 0xef1772b6dff9a122358552954ad0df65) := by decide +kernel
/-- E1, AES-128. -/
theorem test_finalize_aes128 : see (exec .finalize (cipher 4 0x118 e1Plain [])) State.out =
    some (bytesBE 16 0x69c4e0d86a7b0430d8cdb78070b4c55a) := by decide +kernel
/-- E1, AES-192. -/
theorem test_finalize_aes192 : see (exec .finalize (cipher 6 0x218 e1Plain [])) State.out =
    some (bytesBE 16 0xdda97ca4864cdfe06eaf70a0ec0d7191) := by decide +kernel
/-- E1, AES-256. -/
theorem test_finalize_aes256 : see (exec .finalize (cipher 8 0x18 e1Plain [])) State.out =
    some (bytesBE 16 0x8ea2b7ca516745bfeafc49904b496089) := by decide +kernel
/-- E1 decrypted, AES-192. -/
theorem test_finalize_aes192_decrypt :
    see (exec .finalize (cipher 6 0x21c (bytesBE 16 0xdda97ca4864cdfe06eaf70a0ec0d7191) [])) State.out =
      some e1Plain := by decide +kernel
/-- V5, CBC PKCS7, one message byte: the output and the chain. -/
theorem test_finalize_cbc_pkcs7 : see (exec .finalize (cipher 8 0 [0x03] [])) (fun t => (t.out, t.chain)) =
    some (bytesBE 16 0x4e5d648db1ec3f92079aa7d17f4e236c, #v[0x4e5d648d, 0xb1ec3f92, 0x079aa7d1, 0x7f4e236c]) := by
  decide +kernel
/-- V5.4, CBC decrypt NoPadding of `CT17`: the last 16 bytes and `CHAIN0`. -/
theorem test_finalize_cbc_decrypt : see (exec .finalize (cipher 8 0x14
      (bytesBE 32 0xdf1bcdaa93713df65ab3380b982b0d188e0b4d6cf6b78d7d6056bc46d5626a66) []))
    (fun t => (t.out, t.chain[0])) =
      some (bytesBE 32 0x030a11181f262d343b424950575e656c730f0f0f0f0f0f0f0f0f0f0f0f0f0f0f, 0x8e0b4d6c) := by
  decide +kernel
/-- V5, decrypt and unpad: a last byte of 3 removes three bytes. -/
theorem test_finalize_unpads : see (exec .finalize (cipher 8 0xc (bytesBE 16 0x9e56629a09fb3fc4f3da2279090a621e) []))
    State.out = some (bytesBE 13 0x404142434445464748494a4b4c) := by decide +kernel
/-- V5.2: a partial block. -/
theorem test_finalize_partial : see (exec .finalize (cipher 8 0x4 (List.replicate 33 0) []))
    (fun t => (t.errCode, t.errInfo, t.buf.length)) = some (6, 5, 33) := by decide +kernel

/-- V6.1. -/
theorem test_field : xtime 0x57 = 0xae ∧ xtime 0x80 = 0x1b ∧ gmul 0x57 0x83 = 0xc1 ∧ gmul 0x57 0x13 = 0xfe := by decide
/-- V6.1. -/
theorem test_boxes : sbox 0x00 = 0x63 ∧ sbox 0x53 = 0xed ∧ invSbox 0x63 = 0x00 ∧ invSbox 0xed = 0x53 := by decide
/-- V6.1. -/
theorem test_key_words : rotWord 0x0c0d0e0f = 0x0d0e0f0c ∧ subWord 0x0d0e0f0c = 0xd7ab76fe := by decide
/-- V6.4, the state after round 1 of the AES-256 trace. -/
theorem test_round : (fusedRound subMix ⟨0x00102030, 0x40506070, 0x8090a0b0, 0xc0d0e0f0⟩).xor
    ⟨0x10111213, 0x14151617, 0x18191a1b, 0x1c1d1e1f⟩ = ⟨0x4f637606, 0x43e0aa85, 0xefa72132, 0x01a4e705⟩ := by
  decide +kernel

/-! ### The step and the reset -/

/-- V1.1 through the bus. -/
theorem test_step_reads : see (step (State.reset.withFetchWord 16 0x034)) State.resp = some (.readData 0x00400020) := by
  decide
/-- V2.2 through the bus: the command row's word. -/
theorem test_step_command : see (step (State.reset.withFetchWord 32 0x00000001)) statusWord = some 0x00000024 := by decide
/-- V1.5 through the bus. -/
theorem test_step_bus_error : see (step { State.reset with inputs := [.access ⟨false, 0x3FC, 32, 0⟩] })
    (fun t => (t.resp, statusWord t)) = some (.busError, 0) := by decide
/-- 70_reset_and_hazards R342. -/
theorem test_step_hard_reset : see (step { session 0x1 [1] [2] with inputs := [.hardReset] })
    (fun t => (t.phase, t.buf, t.out, t.cfg)) = some (.idle, [], [], 0) := by decide

/-! ### Witnesses: for each statement with hypotheses, concrete inputs that meet them, a clause at a time -/

/-- A `PASS` session of four-word blocks with 21 bytes buffered. -/
def pass21 : State := session 0x00040003 (List.replicate 21 7) []

/-- A SHA-256 session with three bytes buffered. -/
def sha3 : State := { session 0x1 [0x61, 0x62, 0x63] [] with hash := sha256Init }

/-- An AES-128 ECB NoPadding encrypt session with one block buffered. -/
def enc16 : State := cipher 4 0x118 e1Plain []

/-- An AES-256 CBC PKCS7 decrypt session with the 32 bytes `CT17` of V5 buffered. -/
def dec32 : State := cipher 8 0x4 (bytesBE 32 0xdf1bcdaa93713df65ab3380b982b0d188e0b4d6cf6b78d7d6056bc46d5626a66) []

/-- With bytes buffered in an ACTIVE session that is not AES. -/
theorem inv_plain (s : State) (hp : s.params.Legal) (hb : s.buf.length ≤ 4 * s.params.bufWords)
    (ho : s.out.length ≤ 4 * s.params.outWords) (hc : s.ctrl &&& ~~~ctrlMask = 0) (hg : s.cfg &&& ~~~ctrlMask = 0)
    (hl : configLegal s.cfg = true) (hi : s.intEn &&& ~~~intEnMask = 0)
    (he : s.err = false ∧ s.errMulti = false ∧ s.errCode = 0 ∧ s.errInfo = 0) (ha : s.phase = .active)
    (hh : hashSession s = true → s.out = [] ∧ s.total.toNat % 64 = s.buf.length % 64) (hm : algOf s.cfg ≠ .md5)
    (hs : algOf s.cfg = .aes → ∃ key : List Word, key.length = 8 ∧ SchedulesOf s key) : Inv s where
  params_legal := hp
  buf_fits := hb
  out_fits := ho
  ctrl_masked := hc
  cfg_masked := hg
  cfg_legal := hl
  intEn_masked := hi
  capture_clear := fun _ => he.2
  capture_code := fun h => absurd h (by simp [he.1])
  idle_empty := fun h => absurd h (by simp [ha])
  done_empty := fun h => absurd h (by simp [ha])
  hash_out := fun _ h => (hh h).1
  hash_total := fun _ h => (hh h).2
  md5_upper := fun _ h => absurd h hm
  schedules := fun _ h => hs h

theorem inv_pass21 : Inv pass21 :=
  inv_plain pass21 (by decide) (by decide) (by decide) (by decide) (by decide) (by decide) (by decide) (by decide) rfl
    (by decide) (by decide) (fun h => absurd h (by decide))

theorem inv_sha3 : Inv sha3 :=
  inv_plain sha3 (by decide) (by decide) (by decide) (by decide) (by decide) (by decide) (by decide) (by decide) rfl
    (by decide) (by decide) (fun h => absurd h (by decide))

theorem inv_enc16 : Inv enc16 :=
  inv_plain enc16 (by decide) (by decide) (by decide) (by decide) (by decide) (by decide) (by decide) (by decide) rfl
    (by decide) (by decide) (fun _ => ⟨keyRamp, rfl, rfl, rfl⟩)

theorem inv_dec32 : Inv dec32 :=
  inv_plain dec32 (by decide) (by decide) (by decide) (by decide) (by decide) (by decide) (by decide) (by decide) rfl
    (by decide) (by decide) (fun _ => ⟨keyRamp, rfl, rfl, rfl⟩)

theorem witness_DecodeOfEncodeGivesTheInstruction : (Instr.rdKs 59).wf = true ∧ (Instr.wrCmd 0xFFFFFFFF).wf = true := by
  decide

theorem witness_DecodedFormIsItsEncoding : decode (.read 0x1EC) = .ok (.rdKs 59) ∧
    decode (.write 0x200 7) = .ok (.wrIks 0 7) ∧ decode (.cmd 0x402) = .ok .append4 := ⟨rfl, rfl, rfl⟩

/-- Each class of 30_encoding R87 at its ends. -/
theorem witness_IllegalCommandWordsRaiseIllegalCmd :
    ∀ c ∈ [0x00000800, 0x80000000, 0x00000006, 0x0000000E, 0x00000010, 0x000000FF, 0x00000002, 0x00000502, 0x00000702,
      0x00000100, 0x0000070F], Spec.illegalWord c := by
  unfold Spec.illegalWord
  simp only [List.forall_mem_cons, List.not_mem_nil, false_imp_iff, implies_true, and_true]
  refine ⟨?_, ?_, ?_, ?_, ?_, ?_, ?_, ?_, ?_, ?_, ?_⟩ <;> decide

/-- A narrow access, a misaligned one, both ends of every unmapped range, and the mapped neighbours of those ends. -/
theorem witness_AccessesOutsideTheMapGetBusError :
    { State.reset with inputs := [.access ⟨false, 0x402, 16, 0⟩] }.inputs = .access ⟨false, 0x402, 16, 0⟩ :: [] ∧
    (16 : Nat) ≠ 32 ∧ (0x402 : Nat) % 4 ≠ 0 ∧
    (∀ a ∈ [0x038, 0x03C, 0x0A0, 0x0FC, 0x1F0, 0x1FC, 0x2F0, 0x3FC], Spec.unmapped a) ∧
    ∀ a ∈ [0x000, 0x034, 0x040, 0x09C, 0x100, 0x1EC, 0x200, 0x2EC], ¬ Spec.unmapped a := by
  unfold Spec.unmapped
  refine ⟨rfl, by decide, by decide, by decide, by decide⟩

theorem witness_StepRunsTheDecodedInstruction :
    (∃ s : State, s.inputs = .access ⟨false, 0x1EC, 32, 0⟩ :: [] ∧
      decodeAccess ⟨false, 0x1EC, 32, 0⟩ = .ok (.rdKs 59)) ∧
    (∃ s : State, s.inputs = .access ⟨true, 0x40014, 32, 5⟩ :: [] ∧ 0x40014 % 0x400 = 0x014 ∧
      (5 : Word) = Command.finalize.word) :=
  ⟨⟨{ State.reset with inputs := [.access ⟨false, 0x1EC, 32, 0⟩] }, rfl, rfl⟩,
    ⟨{ State.reset with inputs := [.access ⟨true, 0x40014, 32, 5⟩] }, rfl, rfl, rfl⟩⟩

/-- The first and the last register row, as a read and as a write, and a command row (10_state R22, 30_encoding R84). -/
theorem witness_TableWordsDecodeToTheirRows : (0x00000402, .append4) ∈ Spec.commandRows ∧
    (∃ r ∈ Spec.registerRows, r.offset = 0x000 ∧ r.read = .rdId ∧ r.write 7 = .wrId 7) ∧
    (∃ r ∈ Spec.registerRows, r.offset = 0x2EC ∧ r.read = .rdIks 59 ∧ r.write 7 = .wrIks 59 7) ∧
    Spec.registerRows.length = 158 := by
  refine ⟨by decide, ⟨⟨0x000, .rdId, .wrId⟩, by simp [Spec.registerRows], rfl, rfl, rfl⟩,
    ⟨⟨0x200 + 4 * (59 : Fin 64).val, .rdIks 59, .wrIks 59⟩, ?_, rfl, rfl, rfl⟩, by decide +kernel⟩
  exact List.mem_append_right _ (List.mem_map.2 ⟨59, by decide, rfl⟩)

/-- Every case of 10_state R24: a `BLKW` given, the two native sizes, the three key sizes, and MINBUF 1 and 0. -/
theorem witness_ResetStateIsAsTabled : (0x001F0003 : Word).extractLsb' 16 5 ≠ 0 ∧
    (0x1 : Word).extractLsb' 16 5 = 0 ∧ (0x1 : Word).extractLsb' 0 2 = 1 ∧ (0x2 : Word).extractLsb' 0 2 = 2 ∧
    (0x3 : Word).extractLsb' 16 5 = 0 ∧ (0x3 : Word).extractLsb' 0 2 = 3 ∧ (0x0 : Word).extractLsb' 8 2 = 0 ∧
    (0x100 : Word).extractLsb' 8 2 = 1 ∧ (0x200 : Word).extractLsb' 8 2 = 2 ∧
    ((0x14 : Word).extractLsb' 0 2 = 0 ∧ (0x14 : Word).getLsbD 2 = true) ∧
    ¬ ((0x7 : Word).extractLsb' 0 2 = 0 ∧ (0x7 : Word).getLsbD 2 = true) := by decide

theorem witness_FetchedTableWordRuns : decodeTableWord 16 0x41C = some (.wrDout 0) ∧
    decodeTableWord 32 0x00000402 = some .append4 := by decide

theorem witness_BlockWaitsAndHardwareResetResets : State.reset.inputs = [] ∧
    { State.reset with inputs := [.hardReset] }.inputs = .hardReset :: [] := ⟨rfl, rfl⟩

theorem witness_StepKeepsInvariant : ∃ t, Inv { pass21 with inputs := [.access ⟨true, 0x014, 32, 3⟩] } ∧
    step { pass21 with inputs := [.access ⟨true, 0x014, 32, 3⟩] } = .next t :=
  ⟨_, { inv_pass21 with }, next_after _ (by decide +kernel)⟩

theorem witness_ResetMeetsInvariant : Params.Legal ⟨16, 20⟩ ∧ Params.Legal ⟨65520, 65535⟩ := by decide

theorem witness_ReadsReturnRegisterContents : (59 : Fin 64).val < 60 ∧ 60 ≤ (60 : Fin 64).val := by decide

theorem witness_DoutReadPopsOrUnderflows : State.reset.out = [] ∧ (session 0x3 [] [7]).out ≠ [] := by decide

theorem witness_CapReportsBothCapacities : State.reset.params.Legal := by decide

theorem witness_StatusFieldsReadAndClear : (4 : Word).getLsbD 2 = true ∧ (0xFFFFFFFB : Word).getLsbD 2 = false := by
  decide

theorem witness_KeyAndIvWritesStoreAndMark : (0 : Fin 8) ≠ 7 ∧ (0 : Fin 4) ≠ 3 := by decide

theorem witness_ReadOnlyWritesAreIgnored : (59 : Fin 64).val < 60 ∧ 60 ≤ (60 : Fin 64).val := by decide

theorem witness_ErrorCaptureKeepsTheFirst : State.reset.err = false ∧ (State.reset.raise .config 1).err = true := by
  decide

/-- An error raised while `ERR` and `ERR_MULTI` are already 1, and an instruction that raises none then. -/
theorem witness_ErrorsChangeNothingButTheCapture : ∃ s t t0 u u0 : State, s.err = true ∧ s.errMulti = true ∧
    exec .process s = .next t ∧ exec .process (Spec.cleared s) = .next t0 ∧ t0.err = true ∧
    exec (.wrStatus 0xFFFFFFFB) s = .next u ∧ exec (.wrStatus 0xFFFFFFFB) (Spec.cleared s) = .next u0 ∧
    u0.err = false ∧ (∀ v, v.getLsbD 2 = true → Instr.wrStatus 0xFFFFFFFB ≠ .wrStatus v) ∧
    (∀ v : Word, Instr.process ≠ .wrStatus v) ∧ Instr.process ≠ .sreset ∧ Instr.process ≠ .wrCmd 0x0000000F ∧
    Instr.wrStatus 0xFFFFFFFB ≠ .rdStatus ∧ Instr.wrStatus 0xFFFFFFFB ≠ .rdErrInfo := by
  refine ⟨{ State.reset with err := true, errMulti := true, errCode := 3, errInfo := 5 }, _, _, _, _, rfl, rfl,
    next_after _ ?_, next_after _ ?_, ?_, next_after _ ?_, next_after _ ?_, ?_, ?_, by simp, by decide, by decide, by decide, by decide⟩
  · decide
  · decide
  · decide
  · decide
  · decide
  · decide
  · rintro v hv h
    injection h with h
    subst h
    revert hv
    decide

theorem witness_DataCommandsOutsideActiveAreRefused : State.reset.phase ≠ .active ∧
    (pass21.setPhase .done).phase ≠ .active := by decide

theorem witness_NopAndSresetDoTheirWhole : (0x00000100 : Word).extractLsb' 0 8 = 0x00 ∧
    (0x00000100 : Word).extractLsb' 8 3 ≠ 0 ∧ (0x0000080F : Word).extractLsb' 0 8 = 0x0F ∧
    (0x0000080F : Word).extractLsb' 11 21 ≠ 0 := by decide

/-- `config_ok` holds for AES-128 with exactly its four key words written, for a hash whose `KSZ` is 3, and for `PASS`
at `BLKW` 16; it fails for AES-256 with seven key words, for CBC with three IV words, for `KSZ` 3, and at `BLKW` 17. -/
theorem witness_InitSucceedsExactlyWhenConfigOk :
    Spec.configOk { keyed 0x118 with keyWr := 0x0F, ivWr := 0 } ∧ Spec.configOk (keyed 0x00100301) ∧
    Spec.configOk (keyed 0x00100003) ∧ ¬ Spec.configOk { keyed 0x18 with keyWr := 0x7F } ∧
    ¬ Spec.configOk { keyed 0 with ivWr := 7 } ∧ ¬ Spec.configOk (keyed 0x318) ∧ ¬ Spec.configOk (keyed 0x00110003) := by
  refine ⟨?_, ?_, ?_, ?_, ?_, ?_, ?_⟩ <;> (try unfold Spec.configOk Spec.nk Spec.blkw) <;> decide

theorem witness_InitLoadsHashAndPassSessions : Spec.configOk (keyed 1) ∧ (keyed 1).ctrl.extractLsb' 0 2 = 1 ∧
    Spec.configOk (keyed 2) ∧ (keyed 2).ctrl.extractLsb' 0 2 = 2 ∧ Spec.configOk (keyed 3) ∧
    (keyed 3).ctrl.extractLsb' 0 2 = 3 := by
  refine ⟨?_, ?_, ?_, ?_, ?_, ?_⟩ <;> (try unfold Spec.configOk Spec.nk Spec.blkw) <;> decide

/-- All three key sizes. -/
theorem witness_InitExpandsTheAesKey : Spec.configOk (keyed 0) ∧ Spec.configOk (keyed 0x100) ∧
    Spec.configOk (keyed 0x200) ∧ (keyed 0).ctrl.extractLsb' 0 2 = 0 ∧ (keyed 0x100).ctrl.extractLsb' 0 2 = 0 ∧
    (keyed 0x200).ctrl.extractLsb' 0 2 = 0 ∧ Spec.nk 0 = 8 ∧ Spec.nk 0x100 = 4 ∧ Spec.nk 0x200 = 6 := by
  refine ⟨?_, ?_, ?_, ?_, ?_, ?_, ?_, ?_, ?_⟩ <;> (try unfold Spec.configOk Spec.nk Spec.blkw) <;> decide

theorem witness_InitInvertsTheSchedule : Spec.configOk (keyed 0x118) ∧ (keyed 0x118).ctrl.extractLsb' 0 2 = 0 := by
  unfold Spec.configOk Spec.nk Spec.blkw
  decide

/-- Room for exactly `n` more bytes, and one byte less. -/
theorem witness_AppendTakesTheTopBytesOfDin : pass21.phase = .active ∧
    (List.replicate 124 (0 : Byte)).length + 4 ≤ 4 * pass21.params.bufWords ∧
    4 * pass21.params.bufWords < (List.replicate 125 (0 : Byte)).length + 4 := by
  rw [List.length_replicate, List.length_replicate]
  decide

theorem witness_ReadyCountsBlocks : 21 ≤ 2 * blockBytes 0x00040003 := by decide

/-- `OUT` with room for exactly the ready bytes, and for one byte less. -/
theorem witness_ProcessTransformsReadyBlocks : ∃ a b : State, a.phase = .active ∧ algOf a.cfg = .pass ∧
    a.out.length + (a.buf.length / blockBytes a.cfg - minBuf a.cfg) * blockBytes a.cfg = 4 * a.params.outWords ∧
    b.phase = .active ∧ algOf b.cfg = .pass ∧
    4 * b.params.outWords < b.out.length + (b.buf.length / blockBytes b.cfg - minBuf b.cfg) * blockBytes b.cfg :=
  ⟨{ pass21 with out := List.replicate 240 0 }, { pass21 with out := List.replicate 241 0 }, by decide +kernel⟩

/-- A partial block; a whole one without room; a whole one with room. -/
theorem witness_FlushTransformsEverything : sha3.phase = .active ∧ algOf sha3.cfg ≠ .pass ∧
    sha3.buf.length % blockBytes sha3.cfg ≠ 0 ∧ algOf pass21.cfg = .pass ∧
    4 * pass21.params.outWords < (List.replicate 236 (0 : Byte)).length + pass21.buf.length ∧
    algOf enc16.cfg = .aes ∧ enc16.buf.length % blockBytes enc16.cfg = 0 ∧
    ¬ (4 * enc16.params.outWords < enc16.out.length + enc16.buf.length) := by decide +kernel

theorem witness_XformRunsBlocksInOrder : algOf enc16.ctx.cfg = .aes ∧ blockWords enc16.ctx.cfg = 4 ∧
    algOf sha3.ctx.cfg = .sha256 ∧ algOf 0x2 = .md5 ∧ algOf pass21.ctx.cfg = .pass := by decide

theorem witness_PassMovesBytesUnchanged : algOf pass21.ctx.cfg = .pass ∧
    pass21.buf.length ≤ 2 * blockBytes pass21.ctx.cfg ∧ pass21.phase = .active ∧
    pass21.out.length + pass21.buf.length ≤ 4 * pass21.params.outWords := by decide

theorem witness_ProcessKeepsRetainedBlocks : ∃ t, exec .process pass21 = .next t :=
  ⟨_, next_after _ (by decide +kernel)⟩

theorem witness_WordInIsWordOut : ∃ s : State, s.phase = .active ∧ algOf s.cfg = .pass ∧ s.buf = [] ∧ s.out = [] ∧
    s.params.Legal := ⟨session 0x3 [] [], by decide⟩

theorem witness_FinalizePassFlushesAndCloses : pass21.phase = .active ∧ algOf pass21.cfg = .pass ∧
    (List.replicate 235 (0 : Byte)).length + pass21.buf.length ≤ 4 * pass21.params.outWords ∧
    4 * pass21.params.outWords < (List.replicate 236 (0 : Byte)).length + pass21.buf.length := by decide +kernel

/-- Room for exactly the digest, and one byte less, for both hashes (the second only in states no run reaches). -/
theorem witness_FinalizeHashPushesTheDigest : sha3.phase = .active ∧ algOf sha3.cfg = .sha256 ∧
    (List.replicate 224 (0 : Byte)).length + 32 ≤ 4 * sha3.params.outWords ∧
    4 * sha3.params.outWords < (List.replicate 225 (0 : Byte)).length + 32 ∧ algOf 0x2 = .md5 ∧
    (List.replicate 240 (0 : Byte)).length + 16 ≤ 4 * sha3.params.outWords ∧
    4 * sha3.params.outWords < (List.replicate 241 (0 : Byte)).length + 16 := by decide +kernel

/-- NoPadding whole and partial, PKCS7; room for exactly the padded length and one byte less. -/
theorem witness_FinalizeEncryptPadsAndCloses : enc16.phase = .active ∧ algOf enc16.cfg = .aes ∧
    enc16.cfg.getLsbD 2 = false ∧ enc16.cfg.getLsbD 4 = true ∧ enc16.buf.length % 16 = 0 ∧
    (session 0x18 [1] []).buf.length % 16 ≠ 0 ∧ (0 : Word).getLsbD 4 = false ∧ (pkcs7Pad e1Plain).length = 32 ∧
    (List.replicate 224 (0 : Byte)).length + (pkcs7Pad e1Plain).length ≤ 4 * enc16.params.outWords ∧
    4 * enc16.params.outWords < (List.replicate 225 (0 : Byte)).length + (pkcs7Pad e1Plain).length := by decide +kernel

theorem witness_FinalizeDecryptUnpadsAndCloses : dec32.phase = .active ∧ algOf dec32.cfg = .aes ∧
    dec32.cfg.getLsbD 2 = true ∧ dec32.buf.length % 16 = 0 ∧ (session 0x4 [1] []).buf.length % 16 ≠ 0 ∧
    (List.replicate 224 (0 : Byte)).length + dec32.buf.length ≤ 4 * dec32.params.outWords ∧
    4 * dec32.params.outWords < (List.replicate 225 (0 : Byte)).length + dec32.buf.length := by decide +kernel

theorem witness_ByteAndWordViewsAgree : e1Plain.length = 4 * 4 ∧ (3 : Nat) < 4 := by decide

/-- The four combinations of `MODE` and `DIR`. -/
theorem witness_CipherBlockFollowsModeAndDirection :
    ((0x0 : Word).getLsbD 3 = false ∧ (0x0 : Word).getLsbD 2 = false) ∧
    ((0x4 : Word).getLsbD 3 = false ∧ (0x4 : Word).getLsbD 2 = true) ∧
    ((0x8 : Word).getLsbD 3 = true ∧ (0x8 : Word).getLsbD 2 = false) ∧
    ((0xC : Word).getLsbD 3 = true ∧ (0xC : Word).getLsbD 2 = true) := by decide

theorem witness_AesDecryptInvertsEncrypt : (8 : Nat) ≤ keyRamp.length ∧
    ∃ ks iks : Vector Word 60, ks = vectorOf 60 (keyExpand 8 keyRamp) ∧
      iks = vectorOf 60 (invExpand (4 * (8 + 7)) (keyExpand 8 keyRamp)) := ⟨by decide, _, _, rfl, rfl⟩

/-- One block, encrypted by the first session and given to the second. -/
theorem witness_CipherSessionRoundTrip : ∃ e d te : State, e.phase = .active ∧ d.phase = .active ∧ Inv e ∧
    algOf e.cfg = .aes ∧ decrypting e.cfg = false ∧ d.cfg = e.cfg ||| 0x4 ∧ d.ks = e.ks ∧ d.iks = e.iks ∧
    d.chain = e.chain ∧ e.out = [] ∧ d.out = [] ∧ d.params = e.params ∧
    (noPadding e.cfg = true → e.buf.length % 16 = 0) ∧ exec .finalize e = .next te ∧ te.phase = .done ∧
    d.buf = te.out := by
  refine ⟨enc16, { enc16 with cfg := 0x11c, buf := (after (exec .finalize enc16)).out }, after (exec .finalize enc16),
    rfl, rfl, inv_enc16, by decide, by decide, by decide, rfl, rfl, rfl, rfl, rfl, rfl, by decide, ?_, ?_, rfl⟩
  · exact next_after _ (by decide +kernel)
  · decide +kernel

/-- The decrypting PKCS7 session the last hypothesis is about: its last plaintext byte is 15 (V5.1). -/
theorem witness_ProcessBeforeFinalizeChangesNothing : ∃ s p t u : State, Inv s ∧ exec .process s = .next p ∧
    p.err = s.err ∧ p.errMulti = s.errMulti ∧ exec .finalize p = .next t ∧ t.phase = .done ∧ s.phase = .active ∧
    exec .finalize s = .next u ∧ u.phase = .done ∧
    (algOf s.cfg = .aes → decrypting s.cfg = true → noPadding s.cfg = false →
      ∀ b, (xform s.ctx (s.buf.length / 16) s.buf s.xstate).bytes.getLast? = some b → b.toNat ≤ 16) := by
  refine ⟨dec32, after (exec .process dec32), after (exec .finalize (after (exec .process dec32))),
    after (exec .finalize dec32), inv_dec32, next_after _ ?_, ?_, ?_, next_after _ ?_, ?_, rfl, next_after _ ?_, ?_,
    fun _ _ _ b hb => ?_⟩
  · decide +kernel
  · decide +kernel
  · decide +kernel
  · decide +kernel
  · decide +kernel
  · decide +kernel
  · decide +kernel
  · have : (xform dec32.ctx (dec32.buf.length / 16) dec32.buf dec32.xstate).bytes.getLast? = some 0x0f := by
      decide +kernel
    obtain rfl : (0x0f : Byte) = b := Option.some.inj (this.symm.trans hb)
    decide

/-- Two scripts that append the bytes 1, 2 in a `PASS` session of one-word blocks, one with a PROCESS between. -/
theorem witness_StreamingEquivalence : ∃ (s t u : State) (a b : List Instr), Inv s ∧ s.phase = .active ∧ s.err = false ∧
    ¬ (algOf s.cfg = .aes ∧ decrypting s.cfg = true ∧ noPadding s.cfg = false) ∧
    (∀ i ∈ a, Spec.feeding i = true) ∧ (∀ i ∈ b, Spec.feeding i = true) ∧
    Spec.appendedBytes s.din a = Spec.appendedBytes s.din b ∧
    Spec.runInstrs (a ++ [.finalize]) s = some t ∧ t.err = false ∧
    Spec.runInstrs (b ++ [.finalize]) s = some u ∧ u.err = false := by
  have h : ∀ r : Option State, r.isSome = true → r = some (r.getD State.reset) := by
    intro r hr
    cases r with
    | some t => rfl
    | none => cases hr
  refine ⟨pass21, _, _, [.wrDin 0x01020304, .append2], [.wrDin 0x01FF0000, .append1, .process, .wrDin 0x02000000, .append1],
    inv_pass21, rfl, rfl, by decide, by decide, by decide, by decide, h _ ?_, ?_, h _ ?_, ?_⟩
  · decide +kernel
  · decide +kernel
  · decide +kernel
  · decide +kernel

theorem witness_OnlyHostWritesAndSresetChangeInputs : ∃ t, exec .init (keyed 1) = .next t ∧ Instr.init ≠ .sreset ∧
    Instr.init ≠ .wrCmd 0x0000000F ∧ (∀ j v, Instr.init ≠ .wrKey j v) ∧ (∀ j v, Instr.init ≠ .wrIv j v) ∧
    (∀ v, Instr.init ≠ .wrDin v) :=
  ⟨_, next_after _ (by decide +kernel), by decide, by decide, by simp, by simp, by simp⟩

theorem witness_OnlyInitAndSresetChangeTheLatchedSession : ∃ t, exec (.wrCtrl 0x118) pass21 = .next t ∧
    Instr.wrCtrl 0x118 ≠ .init ∧ Instr.wrCtrl 0x118 ≠ .sreset ∧ Instr.wrCtrl 0x118 ≠ .wrCmd 0x00000001 ∧
    Instr.wrCtrl 0x118 ≠ .wrCmd 0x0000000F := ⟨_, next_after _ (by decide), by decide, by decide, by decide, by decide⟩

theorem witness_OnlyInitAppendAndResetChangeTotal : ∃ t u, exec .append4 pass21 = .next t ∧ t.total ≠ pass21.total ∧
    exec .init pass21 = .next u :=
  ⟨_, _, next_after _ (by decide), by decide, next_after _ (by decide +kernel)⟩

/-- One instruction for each of the three transitions. -/
theorem witness_PhaseMovesAsTheStateMachine : ∃ t u v, exec .init (keyed 3) = .next t ∧ t.phase ≠ (keyed 3).phase ∧
    exec .finalize pass21 = .next u ∧ u.phase ≠ pass21.phase ∧ exec .sreset pass21 = .next v ∧
    v.phase ≠ pass21.phase :=
  ⟨_, _, _, next_after _ (by decide +kernel), by decide +kernel, next_after _ (by decide +kernel), by decide +kernel,
    next_after _ (by decide), by decide⟩

theorem witness_OutputIsFinalOncePushed : ∃ t, exec .process pass21 = .next t := ⟨_, next_after _ (by decide +kernel)⟩

/-- No error held, and code 3 held with `ERR_MULTI`; a partial block in `PASS` stops nothing. -/
theorem witness_EmptyOutNeverOverflows : ∃ s t u v t0 u0 v0 : State, Inv s ∧ s.out = [] ∧ s.err = true ∧
    s.errMulti = true ∧ s.phase = .active ∧ exec .process s = .next t ∧ exec .flush s = .next u ∧
    exec .finalize s = .next v ∧ exec .process (Spec.cleared s) = .next t0 ∧ exec .flush (Spec.cleared s) = .next u0 ∧
    exec .finalize (Spec.cleared s) = .next v0 ∧ ¬ Spec.partialRefused .flush s ∧
    ¬ Spec.partialRefused .finalize s ∧ Inv pass21 ∧ pass21.out = [] ∧ pass21.err = false := by
  refine ⟨{ pass21 with err := true, errMulti := true, errCode := 3, errInfo := 5 }, _, _, _, _, _, _,
    { inv_pass21 with capture_clear := fun h => absurd h (by decide), capture_code := fun _ => by decide }, rfl, rfl, rfl, rfl,
    next_after _ ?_, next_after _ ?_, next_after _ ?_, next_after _ ?_, next_after _ ?_, next_after _ ?_, ?_, ?_,
    inv_pass21, rfl, rfl⟩
  · decide +kernel
  · decide +kernel
  · decide +kernel
  · decide +kernel
  · decide +kernel
  · decide +kernel
  · unfold Spec.partialRefused
    decide
  · unfold Spec.partialRefused
    decide

/-- Steps at both ends of every range of 43_hash R191 and R203. -/
theorem witness_HashCompressionsFollowTheirRounds : (15 : Nat) < 16 ∧ (16 : Nat) ≤ 16 ∧ (63 : Nat) < 64 ∧
    Spec.md5Word 16 = 1 ∧ Spec.md5Word 32 = 5 ∧ Spec.md5Word 48 = 0 ∧ Spec.md5Word 63 = 9 ∧ Spec.md5Rotate 15 = 22 ∧
    Spec.md5Rotate 16 = 5 ∧ Spec.md5Rotate 63 = 21 := by decide

end Sys2Proof.Tests
end

-- Proofs of 00_scope: the byte view and the word view
section
/-! The two views of 00_scope R10. `W` reads a sequence four bytes at a time, so each law of the views is the law of one
word (`wordBytes`, `wordOf`) carried along a list. -/

namespace Sys2Proof.Machine

/-! ### One word and its four bytes -/

@[simp] theorem byteOf_wordOf_three (a b c d : Byte) : byteOf (wordOf a b c d) 3 = d :=
  BitVec.extractLsb'_append_eq_right

@[simp] theorem byteOf_wordOf_two (a b c d : Byte) : byteOf (wordOf a b c d) 2 = c :=
  (BitVec.extractLsb'_append_eq_of_le (by decide)).trans BitVec.extractLsb'_append_eq_right

@[simp] theorem byteOf_wordOf_one (a b c d : Byte) : byteOf (wordOf a b c d) 1 = b :=
  (BitVec.extractLsb'_append_eq_of_le (by decide)).trans
    ((BitVec.extractLsb'_append_eq_of_le (by decide)).trans BitVec.extractLsb'_append_eq_right)

@[simp] theorem byteOf_wordOf_zero (a b c d : Byte) : byteOf (wordOf a b c d) 0 = a :=
  (BitVec.extractLsb'_append_eq_of_le (by decide)).trans
    ((BitVec.extractLsb'_append_eq_of_le (by decide)).trans BitVec.extractLsb'_append_eq_left)

@[simp] theorem wordBytes_wordOf (a b c d : Byte) : wordBytes (wordOf a b c d) = [a, b, c, d] := by
  simp [wordBytes]

@[simp] theorem wordOf_byteOf (w : Word) : wordOf (byteOf w 0) (byteOf w 1) (byteOf w 2) (byteOf w 3) = w := by
  unfold wordOf byteOf
  rw [BitVec.extractLsb'_append_extractLsb'_eq_extractLsb' (by decide),
    BitVec.extractLsb'_append_extractLsb'_eq_extractLsb' (by decide),
    BitVec.extractLsb'_append_extractLsb'_eq_extractLsb' (by decide)]
  exact BitVec.extractLsb'_eq_self

/-! ### The byte view -/

@[simp] theorem bytesOf_nil : bytesOf [] = [] := rfl

@[simp] theorem bytesOf_cons (w : Word) (ws : List Word) : bytesOf (w :: ws) = wordBytes w ++ bytesOf ws :=
  List.flatMap_cons

/-! ### The word view -/

/-- Byte `j` of word `k` is byte `4k + j` of the sequence, 0 past its end (00_scope R10). -/
theorem byteOf_wordAt (s : List Byte) (k j : Nat) (hj : j < 4) : byteOf (wordAt s k) j = s.getD (4 * k + j) 0 := by
  match j, hj with
  | 0, _ => exact byteOf_wordOf_zero ..
  | 1, _ => exact byteOf_wordOf_one ..
  | 2, _ => exact byteOf_wordOf_two ..
  | 3, _ => exact byteOf_wordOf_three ..

/-- The first word of a sequence that begins with a word's bytes is that word. -/
@[simp] theorem wordAt_wordBytes_append (w : Word) (s : List Byte) : wordAt (wordBytes w ++ s) 0 = w :=
  wordOf_byteOf w

/-- The first four bytes of a sequence are the bytes of its first word. -/
theorem wordBytes_wordAt_zero (s : List Byte) (h : 4 ≤ s.length) : wordBytes (wordAt s 0) = s.take 4 := by
  match s, h with
  | a :: b :: c :: d :: s, _ => exact wordBytes_wordOf a b c d

theorem wordAt_succ (s : List Byte) (k : Nat) : wordAt s (k + 1) = wordAt (s.drop 4) k := by
  simp only [wordAt, List.getD_eq_getElem?_getD, List.getElem?_drop, Nat.mul_add, Nat.add_comm 4, Nat.add_right_comm _ 4]

@[simp] theorem wordsAt_zero (s : List Byte) : wordsAt s 0 = [] := rfl

/-- The words of a sequence: its first word, then the words of what follows the first four bytes. -/
theorem wordsAt_succ (s : List Byte) (n : Nat) : wordsAt s (n + 1) = wordAt s 0 :: wordsAt (s.drop 4) n := by
  simp [wordsAt, List.range_succ_eq_map, Function.comp_def, wordAt_succ]

@[simp] theorem length_wordsAt (s : List Byte) (n : Nat) : (wordsAt s n).length = n := by
  simp [wordsAt]

theorem getD_wordsAt (s : List Byte) (n k : Nat) (hk : k < n) : (wordsAt s n).getD k 0 = wordAt s k := by
  simp [wordsAt, List.getD_eq_getElem?_getD, hk]

/-! ### The views undo each other -/

/-- `W(B(ws))` is `ws` (00_scope R10). -/
theorem wordsAt_bytesOf (ws : List Word) : wordsAt (bytesOf ws) ws.length = ws := by
  induction ws with
  | nil => rfl
  | cons w ws ih =>
    have hdrop : (wordBytes w ++ bytesOf ws).drop 4 = bytesOf ws := rfl
    rw [List.length_cons, wordsAt_succ, bytesOf_cons, wordAt_wordBytes_append, hdrop, ih]

/-- `B(W(s))` is `s` for whole words (00_scope R10). -/
theorem bytesOf_wordsAt (n : Nat) (s : List Byte) (h : s.length = 4 * n) : bytesOf (wordsAt s n) = s := by
  induction n generalizing s with
  | zero => exact (List.length_eq_zero_iff.mp h).symm
  | succ n ih =>
    have hdrop : (s.drop 4).length = 4 * n := by rw [List.length_drop]; omega
    rw [wordsAt_succ, bytesOf_cons, wordBytes_wordAt_zero s (by omega), ih _ hdrop, List.take_append_drop]

/-- Settles O44: the laws of the two views, with the bytes of one word read off `byteOf`. -/
theorem byteAndWordViewsAgree : Obligations.ByteAndWordViewsAgree :=
  ⟨wordsAt_bytesOf, fun s n => bytesOf_wordsAt n s, byteOf_wordAt,
    fun _ => ⟨rfl, rfl, rfl, rfl, rfl, rfl⟩, fun _ => rfl,
    fun s n => ⟨length_wordsAt s n, getD_wordsAt s n⟩⟩

end Sys2Proof.Machine
end

-- Proofs of 00_scope: one step of the machine
section
/-! What an access decodes to, by the register its offset names, and the step that serves it (00_scope R13). -/

namespace Sys2Proof.Machine

/-- A step serves the pending access by the instruction it decodes to. -/
theorem step_access (s : State) (x : HostAccess) (rest : List Input) (i : Instr) (hs : s.inputs = .access x :: rest)
    (hx : decodeAccess x = .ok i) : step s = exec i { s with inputs := rest } := by
  simp only [step, hs, serve, hx]

/-- A 32-bit access at a mapped register's offset is that register's read, or its write of the data (20_memory R67 takes
the offset modulo 0x400). -/
theorem decodeAccess_at_offset (x : HostAccess) (r : Reg) (hw : x.width = 32) (hr : r.mapped = true)
    (ha : x.addr % 0x400 = r.offset.toNat) :
    decodeAccess x = .ok (if x.isWrite then Instr.ofWrite x.data r else Instr.ofRead r) := by
  have hoff : BitVec.ofNat 10 x.addr = r.offset := BitVec.eq_of_toNat_eq ha
  cases hx : x.isWrite <;> simp [decodeAccess, fetch, decode, hw, hx, hoff, regAt_offset r hr, Except.map]

/-- A write of `CMD` with a command's word makes the step run that command's own row (40_host_access R108). -/
theorem step_command (s : State) (x : HostAccess) (rest : List Input) (k : Command) (hs : s.inputs = .access x :: rest)
    (hwr : x.isWrite = true) (hw : x.width = 32) (ha : x.addr % 0x400 = 0x014) (hd : x.data = k.word) :
    step s = exec k.toInstr { s with inputs := rest } := by
  have hx : decodeAccess x = .ok (.wrCmd k.word) := by
    rw [decodeAccess_at_offset x .cmd hw rfl ha, hwr, hd]
    rfl
  rw [step_access s x rest _ hs hx]
  exact execWrCmd_word k _

/-- Each row of 30_encoding R84 is a command's word and row. -/
theorem command_of_mem_commandRows (p : Word × Instr) (hp : p ∈ Spec.commandRows) :
    ∃ k : Command, p = (k.word, k.toInstr) := by
  simp only [Spec.commandRows, List.mem_cons, List.not_mem_nil, or_false] at hp
  rcases hp with rfl | rfl | rfl | rfl | rfl | rfl | rfl | rfl | rfl | rfl
  exacts [⟨.nop, rfl⟩, ⟨.init, rfl⟩, ⟨.append1, rfl⟩, ⟨.append2, rfl⟩, ⟨.append3, rfl⟩, ⟨.append4, rfl⟩,
    ⟨.process, rfl⟩, ⟨.flush, rfl⟩, ⟨.finalize, rfl⟩, ⟨.sreset, rfl⟩]

/-- The row of the window a register has. -/
def windowRow (r : Reg) : Spec.RegisterRow :=
  { offset := r.offset.toNat, read := .ofRead r, write := fun v => .ofWrite v r }

/-- Each row of 10_state R22 is the row of a mapped register. -/
theorem register_of_mem_registerRows (row : Spec.RegisterRow) (h : row ∈ Spec.registerRows) :
    ∃ r : Reg, r.mapped = true ∧ row = windowRow r := by
  have hsched : ∀ i ∈ (List.finRange 64).take 60, i.val < 60 := by decide
  have hoff : ∀ n < 0x400, n = (BitVec.ofNat 10 n).toNat := fun n hn => (Nat.mod_eq_of_lt hn).symm
  simp only [Spec.registerRows, List.mem_append, List.mem_cons, List.not_mem_nil, or_false, List.mem_map] at h
  rcases h with (((((h | ⟨i, -, rfl⟩) | ⟨i, -, rfl⟩) | ⟨i, -, rfl⟩) | ⟨i, -, rfl⟩) | ⟨i, hi, rfl⟩) | ⟨i, hi, rfl⟩
  · rcases h with rfl | rfl | rfl | rfl | rfl | rfl | rfl | rfl | rfl | rfl | rfl | rfl | rfl | rfl
    exacts [⟨.id, rfl, rfl⟩, ⟨.ctrl, rfl, rfl⟩, ⟨.status, rfl, rfl⟩, ⟨.errInfo, rfl, rfl⟩, ⟨.intEn, rfl, rfl⟩,
      ⟨.cmd, rfl, rfl⟩, ⟨.din, rfl, rfl⟩, ⟨.dout, rfl, rfl⟩, ⟨.bufBytes, rfl, rfl⟩, ⟨.outBytes, rfl, rfl⟩,
      ⟨.totalLo, rfl, rfl⟩, ⟨.totalHi, rfl, rfl⟩, ⟨.cfg, rfl, rfl⟩, ⟨.cap, rfl, rfl⟩]
  · exact ⟨.key i, rfl, congrArg (Spec.RegisterRow.mk · _ _) (hoff (0x040 + 4 * i) (by omega))⟩
  · exact ⟨.iv i, rfl, congrArg (Spec.RegisterRow.mk · _ _) (hoff (0x060 + 4 * i) (by omega))⟩
  · exact ⟨.chain i, rfl, congrArg (Spec.RegisterRow.mk · _ _) (hoff (0x070 + 4 * i) (by omega))⟩
  · exact ⟨.hash i, rfl, congrArg (Spec.RegisterRow.mk · _ _) (hoff (0x080 + 4 * i) (by omega))⟩
  · exact ⟨.ks i, decide_eq_true (hsched i hi), congrArg (Spec.RegisterRow.mk · _ _) (hoff (0x100 + 4 * i) (by omega))⟩
  · exact ⟨.iks i, decide_eq_true (hsched i hi), congrArg (Spec.RegisterRow.mk · _ _) (hoff (0x200 + 4 * i) (by omega))⟩

/-- Settles O7: a written-out row is a command's or a mapped register's, and for those the decoder is known. -/
theorem stepRunsTheDecodedInstruction : Obligations.StepRunsTheDecodedInstruction := by
  refine ⟨step_access, step_command, ?_, ?_⟩
  · intro s x rest p hp hs hwr hw ha hd
    obtain ⟨k, rfl⟩ := command_of_mem_commandRows p hp
    exact step_command s x rest k hs hwr hw ha hd
  · intro x row hrow hw ha
    obtain ⟨r, hr, rfl⟩ := register_of_mem_registerRows row hrow
    exact decodeAccess_at_offset x r hw hr ha

end Sys2Proof.Machine
end

-- Proofs of 00_scope: the capacities
section
/-! The two fields of `CAP` (00_scope R7). -/

namespace Sys2Proof.Machine

/-- `CAP` as a number: the two capacities do not overlap. -/
theorem toNat_capValue (p : Params) (h : p.Legal) : (capValue p).toNat = p.outWords * 2 ^ 16 + p.bufWords := by
  obtain ⟨-, -, hout, hlt⟩ := h
  have hbuf : p.bufWords < 2 ^ 16 := by omega
  have hhi : (BitVec.ofNat 32 p.outWords <<< 16).toNat = p.outWords <<< 16 := by
    rw [BitVec.toNat_shiftLeft, BitVec.toNat_ofNat, Nat.shiftLeft_eq, Nat.shiftLeft_eq]
    omega
  have hlo : (BitVec.ofNat 32 p.bufWords).toNat = p.bufWords := Nat.mod_eq_of_lt (by omega)
  rw [capValue, BitVec.toNat_or, hhi, hlo, ← Nat.shiftLeft_add_eq_or_of_lt hbuf, Nat.shiftLeft_eq]

/-- Settles O15: the two fields are the quotient and the remainder of `CAP` by `2 ^ 16`. -/
theorem capReportsBothCapacities : Obligations.CapReportsBothCapacities := by
  intro s hs
  have hcap := toNat_capValue s.params hs
  obtain ⟨-, -, hout, hlt⟩ := hs
  refine ⟨capValue s.params, rfl, ?_, ?_⟩
  · rw [BitVec.extractLsb'_toNat, hcap]; omega
  · rw [BitVec.extractLsb'_toNat, hcap]; omega

end Sys2Proof.Machine
end

-- Proofs of 10_state: what a command that succeeds leaves
section
/-! The ten commands fall into six shapes. Each claim over all instructions is a case split over these shapes and the
fact that nothing else reaches the session. -/

namespace Sys2Proof.Machine

/-- A process step takes whole blocks, but for a `PASS` flush (42_stream R152, R153). -/
def TakesWholeBlocks (cfg : Word) (r : Ready) : Prop := algOf cfg ≠ .pass → r.nbytes = r.nblk * blockBytes cfg

/-- What lets a process step consume `r`: PROCESS and FLUSH differ in `r` alone. -/
structure MayConsume (s : State) (r : Ready) : Prop where
  active : s.phase = .active
  buffered : r.nbytes ≤ s.buf.length
  whole : TakesWholeBlocks s.cfg r
  room : ¬ ((algOf s.cfg).outputs = true ∧ s.outFull r.nbytes)

/-- What a successful `FINALIZE` does in every session (42_stream R157, 43_hash R181, 44_cipher R221, R222). -/
structure Closes (s u : State) : Prop where
  active : s.phase = .active
  done : u.phase = .done
  buf : u.buf = []
  total : u.total = s.total
  out : ∃ l, u.out = s.out ++ l

/-- The four APPENDs with the number of bytes each takes (42_stream R150). -/
def appendRows : List (Nat × Command) := [(1, .append1), (2, .append2), (3, .append3), (4, .append4)]

theorem le_four_of_mem_appendRows {n : Nat} {k : Command} (h : (n, k) ∈ appendRows) : n ≤ 4 :=
  (by decide : ∀ p ∈ appendRows, p.1 ≤ 4) _ h

/-- What a command that succeeds leaves. -/
inductive Ran (s : State) : Command → State → Prop
  | nop : Ran s .nop s
  | init (hc : configOk s.keyWr s.ivWr s.ctrl = true) : Ran s .init (s.startSession.loadAlgorithm s.ctrl)
  | append (n : Nat) (k : Command) (ha : s.phase = .active) (hroom : s.buf.length + n ≤ 4 * s.params.bufWords)
      (hk : (n, k) ∈ appendRows) :
      Ran s k { s with buf := s.buf ++ dinBytes s.din n, total := s.total + BitVec.ofNat 64 n }
  | consume (r : Ready) (k : Command) (hk : k = .process ∨ k = .flush) (hr : MayConsume s r) : Ran s k (s.consume r)
  | finalize (u : State) (hu : finalizeCmd s = .ok u) (hc : Closes s u) : Ran s .finalize u
  | sreset : Ran s .sreset s.toReset

theorem ready_false_whole (cfg : Word) (len : Nat) : TakesWholeBlocks cfg (ready cfg len false) := fun _ => by
  rw [(ready_false cfg len).1, (ready_false cfg len).2]

/-- The blocks that cover a whole number of blocks are that number. -/
theorem ceil_mul_of_dvd (len bb : Nat) (hb : 0 < bb) (h : len % bb = 0) : (len + bb - 1) / bb * bb = len := by
  obtain ⟨m, rfl⟩ := Nat.dvd_of_mod_eq_zero h
  rw [Nat.add_sub_assoc hb, Nat.mul_add_div hb, Nat.div_eq_of_lt (by omega), Nat.add_zero, Nat.mul_comm]

theorem ready_true_whole (cfg : Word) (len : Nat) (h : algOf cfg ≠ .pass → len % blockBytes cfg = 0) :
    TakesWholeBlocks cfg (ready cfg len true) := fun hp => by
  rw [(ready_true cfg len).1, (ready_true cfg len).2, ceil_mul_of_dvd len _ (blockBytes_pos cfg) (h hp)]

theorem processCmd_consumes (s u : State) (h : processCmd s = .ok u) : ∃ r, MayConsume s r ∧ s.consume r = u := by
  obtain ⟨ha, hroom, hu⟩ := (processCmd_ok s u).1 h
  exact ⟨_, ⟨ha, ready_false_le _ _, ready_false_whole _ _, hroom⟩, hu⟩

theorem flushCmd_consumes (s u : State) (h : flushCmd s = .ok u) : ∃ r, MayConsume s r ∧ s.consume r = u := by
  obtain ⟨ha, hpart, hroom, hu⟩ := (flushCmd_ok s u).1 h
  exact ⟨_, ⟨ha, le_rfl, ready_true_whole _ _ fun hp => by simpa [hp] using hpart, hroom⟩, hu⟩

theorem appendCmd_ran (n : Nat) (k : Command) (s u : State) (hk : (n, k) ∈ appendRows)
    (h : appendCmd n s = .ok u) : Ran s k u := by
  obtain ⟨ha, hroom, rfl⟩ := (appendCmd_ok n s u).1 h
  exact .append n k ha hroom hk

theorem finalizeCmd_closes (s u : State) (h : finalizeCmd s = .ok u) : Closes s u := by
  rcases finalizeCmd_cases s with ⟨-, -, hf⟩ | ⟨-, -, hf⟩ | ⟨-, hf⟩ | ⟨-, hf⟩ | ⟨-, hf⟩ <;> rw [hf] at h
  · obtain ⟨ha, -, -, rfl⟩ := (finalizeDecrypt_ok s u).1 h
    exact ⟨ha, rfl, rfl, rfl, _, rfl⟩
  · obtain ⟨ha, -, -, rfl⟩ := (finalizeEncrypt_ok s u).1 h
    exact ⟨ha, rfl, rfl, rfl, _, rfl⟩
  · obtain ⟨ha, -, rfl⟩ := (finalizeHash_ok _ s u).1 h
    exact ⟨ha, rfl, rfl, rfl, _, rfl⟩
  · obtain ⟨ha, -, rfl⟩ := (finalizeHash_ok _ s u).1 h
    exact ⟨ha, rfl, rfl, rfl, _, rfl⟩
  · obtain ⟨v, hv, rfl⟩ := (finalizePass_ok s u).1 h
    obtain ⟨ha, -, -, rfl⟩ := (flushCmd_ok s v).1 hv
    exact ⟨ha, rfl, List.drop_length, rfl, _, rfl⟩

/-- Every success of a command has one of the shapes. -/
theorem commandCore_ran (k : Command) (s u : State) (h : commandCore k s = .ok u) : Ran s k u := by
  cases k
  case nop => cases h; exact .nop
  case init =>
    obtain ⟨hc, rfl⟩ := (initCmd_ok s u).1 h
    exact .init hc
  case append1 => exact appendCmd_ran 1 _ s u (by decide) h
  case append2 => exact appendCmd_ran 2 _ s u (by decide) h
  case append3 => exact appendCmd_ran 3 _ s u (by decide) h
  case append4 => exact appendCmd_ran 4 _ s u (by decide) h
  case process =>
    obtain ⟨r, hr, rfl⟩ := processCmd_consumes s u h
    exact .consume r _ (.inl rfl) hr
  case flush =>
    obtain ⟨r, hr, rfl⟩ := flushCmd_consumes s u h
    exact .consume r _ (.inr rfl) hr
  case finalize => exact .finalize u h (finalizeCmd_closes s u h)
  case sreset => cases h; exact .sreset

end Sys2Proof.Machine
end

-- Proofs of 10_state: who changes the session
section
/-! `CFG`, the schedules, `TOTAL`, `PHASE` and `OUT` over all instructions (10_state R25, R27, R34, R41 to R43). -/

namespace Sys2Proof.Machine

/-- What only a command reaches, `OUT` left to the reads of `DOUT`. -/
structure SessionKept (i : Instr) (s t : State) : Prop extends SameSession s t where
  total : t.total = s.total
  phase : t.phase = s.phase
  out : t.out = s.out ∨ (i = .rdDout ∧ t.out = s.out.drop 4)

/-- Only a command that succeeds reaches the session; a read of `DOUT` pops `OUT`. -/
theorem exec_ran_or_sessionKept (i : Instr) (s t : State) (h : exec i s = .next t) :
    (∃ k u, Issues i k ∧ commandCore k s = .ok u ∧ Ran s k u ∧ t = u.respond .writeDone) ∨ SessionKept i s t := by
  cases exec_effect i s t h
  case command k u hi hk => exact .inl ⟨k, u, hi, hk, commandCore_ran k s u hk, rfl⟩
  case pop hi _ => exact .inr { cfg := rfl, ks := rfl, iks := rfl, total := rfl, phase := rfl, out := .inr ⟨hi, rfl⟩ }
  all_goals exact .inr { cfg := by simp, ks := by simp, iks := by simp, total := by simp, phase := by simp,
                         out := .inl (by simp) }

/-- A list holds every instruction that issues a command when it holds the command's row and its written word. -/
theorem Issues.mem {i : Instr} {k : Command} {l : List Instr} (hi : Issues i k)
    (hl : k.toInstr ∈ l ∧ .wrCmd k.word ∈ l) : i ∈ l := by
  rcases hi with rfl | rfl
  · exact hl.1
  · exact hl.2

/-- Settles O55: of the commands, only INIT and SRESET leave another session latched. -/
theorem onlyInitAndSresetChangeTheLatchedSession : Obligations.OnlyInitAndSresetChangeTheLatchedSession := by
  intro i s t h hinit hsreset hinitWord hsresetWord
  rcases exec_ran_or_sessionKept i s t h with ⟨k, u, hi, hk, -, rfl⟩ | hkept
  · have hki : k ≠ .init := by rintro rfl; exact hi.elim hinit hinitWord
    have hkr : k ≠ .sreset := by rintro rfl; exact hi.elim hsreset hsresetWord
    obtain ⟨hcfg, hks, hiks⟩ := (commandCore_frame k s u hk).2 hkr hki
    exact ⟨hcfg, hks, hiks⟩
  · exact ⟨hkept.cfg, hkept.ks, hkept.iks⟩

/-- Settles O56: of the commands' shapes, INIT, SRESET and APPEND alone name `TOTAL`. -/
theorem onlyInitAppendAndResetChangeTotal : Obligations.OnlyInitAppendAndResetChangeTotal := by
  refine ⟨fun i s t h hne => ?_, fun s t h => ?_, fun n i s t hi h => ?_⟩
  · rcases exec_ran_or_sessionKept i s t h with ⟨k, u, hi, -, hran, rfl⟩ | hkept
    · cases hran
      case init => exact hi.mem (by decide)
      case sreset => exact hi.mem (by decide)
      case append hk =>
        exact hi.mem ((by decide : ∀ p ∈ appendRows, p.2.toInstr ∈ _ ∧ Instr.wrCmd p.2.word ∈ _) _ hk)
      case nop => exact absurd rfl hne
      case consume => exact absurd rfl hne
      case finalize hc => exact absurd hc.total hne
    · exact absurd hkept.total hne
  · rcases endCommand_next _ _ _ _ h with ⟨u, hu, rfl⟩ | ⟨e, -, rfl⟩
    · obtain ⟨-, rfl⟩ := (initCmd_ok s u).1 hu
      exact .inr (by simp)
    · exact .inl (by simp)
  · have happ : ∃ c, endCommand c s (appendCmd n s) = .next t := by
      simp only [List.mem_cons, List.not_mem_nil, or_false, Prod.mk.injEq] at hi
      rcases hi with ⟨rfl, rfl⟩ | ⟨rfl, rfl⟩ | ⟨rfl, rfl⟩ | ⟨rfl, rfl⟩ <;> exact ⟨_, h⟩
    obtain ⟨c, hc⟩ := happ
    rcases endCommand_next _ _ _ _ hc with ⟨u, hu, rfl⟩ | ⟨e, -, rfl⟩
    · obtain ⟨-, -, rfl⟩ := (appendCmd_ok n s u).1 hu
      exact .inr rfl
    · exact .inl (by simp)

/-- Settles O57: of the commands' shapes, INIT, FINALIZE and SRESET alone name `PHASE`. -/
theorem phaseMovesAsTheStateMachine : Obligations.PhaseMovesAsTheStateMachine := by
  intro i s t h hne
  rcases exec_ran_or_sessionKept i s t h with ⟨k, u, hi, -, hran, rfl⟩ | hkept
  · cases hran
    case init => exact .inl ⟨by simp, hi⟩
    case finalize hc => exact .inr (.inl ⟨hc.active, hc.done, hi⟩)
    case sreset => exact .inr (.inr ⟨rfl, hi⟩)
    case nop => exact absurd rfl hne
    case append => exact absurd rfl hne
    case consume => exact absurd rfl hne
  · exact absurd hkept.phase hne

/-- Settles O58: the streaming commands and FINALIZE only add to `OUT`, INIT and SRESET empty it. -/
theorem outputIsFinalOncePushed : Obligations.OutputIsFinalOncePushed := by
  intro i s t h
  have hsame : ∀ u : State, u.out = s.out → ∃ l, u.out = s.out ++ l := fun u hu => ⟨[], by simp [hu]⟩
  rcases exec_ran_or_sessionKept i s t h with ⟨k, u, hi, -, hran, rfl⟩ | hkept
  · cases hran
    case nop => exact .inl (hsame _ rfl)
    case append => exact .inl (hsame _ rfl)
    case consume => exact .inl ⟨_, rfl⟩
    case finalize hc => exact .inl hc.out
    case init => exact .inr (.inr ⟨by simp, hi.mem (by decide)⟩)
    case sreset => exact .inr (.inr ⟨rfl, hi.mem (by decide)⟩)
  · rcases hkept.out with hout | ⟨rfl, hout⟩
    · exact .inl (hsame t hout)
    · exact .inr (.inl ⟨rfl, hout⟩)

end Sys2Proof.Machine
end

-- Proofs of 10_state: refused commands
section
/-! A refused command is the capture of 60_exceptions R302 and nothing else, written as the statements write it. -/

namespace Sys2Proof.Machine

/-- The model's capture is the spec's (60_exceptions R302). -/
theorem raise_eq_captured (s : State) (e : ErrCode) (v : Word) : s.raise e v = Spec.captured s e.code v := by
  unfold State.raise Spec.captured
  cases s.err <;> rfl

/-- A command whose core is an error is refused with that error and its own word (60_exceptions R303). -/
theorem exec_refused (k : Command) (s : State) (e : ErrCode) (h : commandCore k s = .error e) :
    exec k.toInstr s = .next (Spec.refused s e.code k.word) := by
  rw [exec_command, h, endCommand_error, raise_eq_captured]
  rfl

/-- Outside `ACTIVE` every `FINALIZE` meets its phase guard first. -/
theorem finalizeCmd_not_active (s : State) (h : s.phase ≠ .active) : finalizeCmd s = .error .sequence := by
  rcases finalizeCmd_cases s with ⟨-, -, hf⟩ | ⟨-, -, hf⟩ | ⟨-, hf⟩ | ⟨-, hf⟩ | ⟨-, hf⟩ <;> rw [hf]
  · exact (finalizeDecrypt_error s _).2 (.inl ⟨h, rfl⟩)
  · exact (finalizeEncrypt_error s _).2 (.inl ⟨h, rfl⟩)
  · exact (finalizeHash_error _ s _).2 (.inl ⟨h, rfl⟩)
  · exact (finalizeHash_error _ s _).2 (.inl ⟨h, rfl⟩)
  · exact (finalizePass_error s _).2 ((flushCmd_error s _).2 (.inl ⟨h, rfl⟩))

/-- Settles O23: the phase guard is the first of each data command. -/
theorem dataCommandsOutsideActiveAreRefused : Obligations.DataCommandsOutsideActiveAreRefused := by
  intro s h
  have happend : ∀ n, appendCmd n s = .error .sequence := fun n => (appendCmd_error n s _).2 (.inl ⟨h, rfl⟩)
  exact ⟨exec_refused .append1 s .sequence (happend 1), exec_refused .append2 s .sequence (happend 2),
    exec_refused .append3 s .sequence (happend 3), exec_refused .append4 s .sequence (happend 4),
    exec_refused .process s .sequence ((processCmd_error s _).2 (.inl ⟨h, rfl⟩)),
    exec_refused .flush s .sequence ((flushCmd_error s _).2 (.inl ⟨h, rfl⟩)),
    exec_refused .finalize s .sequence (finalizeCmd_not_active s h)⟩

end Sys2Proof.Machine
end

-- Proofs of 10_state: STATUS
section
/-! The fields of `STATUS` (10_state R26), read off the concatenation that assembles it, lowest field first. -/

namespace Sys2Proof.Machine

open BitVec (extractLsb'_append_eq_of_le extractLsb'_append_eq_left extractLsb'_append_eq_right)

theorem statusWord_phase (s : State) : (statusWord s).extractLsb' 0 2 = s.phase.bits :=
  extractLsb'_append_eq_right

theorem statusWord_errCode (s : State) : (statusWord s).extractLsb' 4 4 = s.errCode := by
  rw [statusWord, extractLsb'_append_eq_of_le (by decide), extractLsb'_append_eq_of_le (by decide),
    extractLsb'_append_eq_of_le (by decide)]
  exact extractLsb'_append_eq_right

/-- The fields above `ERR_CODE`, counted from bit 8. -/
theorem statusWord_above_errCode (s : State) (k n : Nat) : (statusWord s).extractLsb' (8 + k) n =
    ((0 : BitVec 10) ++ BitVec.ofBool (irq s) ++ BitVec.ofBool (outNe s) ++ s.ivWr ++ s.keyWr).extractLsb' k n := by
  rw [statusWord, extractLsb'_append_eq_of_le (by omega), extractLsb'_append_eq_of_le (by omega),
    extractLsb'_append_eq_of_le (by omega), extractLsb'_append_eq_of_le (by omega)]
  exact congrArg (BitVec.extractLsb' · n _) (by omega)

theorem statusWord_keyWr (s : State) : (statusWord s).extractLsb' 8 8 = s.keyWr :=
  (statusWord_above_errCode s 0 8).trans extractLsb'_append_eq_right

theorem statusWord_ivWr (s : State) : (statusWord s).extractLsb' 16 4 = s.ivWr := by
  rw [show 16 = 8 + 8 from rfl, statusWord_above_errCode, extractLsb'_append_eq_of_le (by decide)]
  exact extractLsb'_append_eq_right

theorem statusWord_reserved (s : State) : (statusWord s).extractLsb' 22 10 = 0 := by
  rw [show 22 = 8 + 14 from rfl, statusWord_above_errCode, extractLsb'_append_eq_of_le (by decide),
    extractLsb'_append_eq_of_le (by decide), extractLsb'_append_eq_of_le (by decide)]
  exact extractLsb'_append_eq_left

theorem statusWord_bits (s : State) : (statusWord s).getLsbD 2 = s.err ∧ (statusWord s).getLsbD 3 = s.errMulti ∧
    (statusWord s).getLsbD 20 = outNe s ∧ (statusWord s).getLsbD 21 = irq s := by
  simp only [statusWord, BitVec.getLsbD_append]
  simp

/-- Settles O16: each field is read at its place, and bit 2 alone decides what a write of `STATUS` does. -/
theorem statusFieldsReadAndClear : Obligations.StatusFieldsReadAndClear := by
  refine ⟨fun s => ?_, fun v s hv => ?_, fun v s hv => ?_, by decide⟩
  · obtain ⟨herr, hmulti, hout, hirq⟩ := statusWord_bits s
    exact ⟨rfl, by rw [statusWord_phase]; cases s.phase <;> rfl, herr, hmulti, statusWord_errCode s,
      statusWord_keyWr s, statusWord_ivWr s, hout, hirq, statusWord_reserved s⟩
  · show writeTo (if v.getLsbD 2 = true then s.clearError else s) = _
    rw [if_pos hv]
    rfl
  · show writeTo (if v.getLsbD 2 = true then s.clearError else s) = _
    rw [if_neg (ne_true_of_eq_false hv)]
    rfl

end Sys2Proof.Machine
end

-- Proofs of 10_state: what the engine adds to OUT and leaves of HASH
section
/-! The invariant's facts about the transform: with a legal configuration its output is no longer than what it consumes,
and an MD5 block leaves `HASH4..7`. -/

namespace Sys2Proof.Machine

/-- A legal AES configuration has blocks of 16 bytes (10_state R24, 41_session R132). -/
theorem blockBytes_aes (c : Word) (hl : configLegal c = true) (ha : algOf c = .aes) : blockBytes c = 16 := by
  have hb : kszOf c ≠ 3 ∧ (blkwOf c = 0 ∨ blkwOf c = 4) := by simpa [configLegal, ha] using hl
  rcases hb.2 with hb | hb <;> simp [blockBytes, blockWords, nativeBlockWords, ha, hb]

/-- A legal hash configuration has blocks of 64 bytes. -/
theorem blockBytes_hash (c : Word) (hl : configLegal c = true) (ha : (algOf c).outputs = false) : blockBytes c = 64 := by
  cases halg : algOf c
  case aes | pass => simp [halg, Alg.outputs] at ha
  case sha256 | md5 =>
    have hb : blkwOf c = 0 ∨ blkwOf c = 16 := by simpa [configLegal, halg] using hl
    rcases hb with hb | hb <;> simp [blockBytes, blockWords, nativeBlockWords, halg, hb]

theorem hashSession_eq (s : State) : hashSession s = !(algOf s.cfg).outputs := by
  unfold hashSession
  cases algOf s.cfg <;> rfl

/-- What a process step adds to `OUT` is no longer than what it takes from `BUF`. -/
theorem xform_length_le (c : Ctx) (r : Ready) (d : List Byte) (x : XState) (hl : configLegal c.cfg = true)
    (hw : TakesWholeBlocks c.cfg r) : (xform c r.nblk (d.take r.nbytes) x).bytes.length ≤ r.nbytes := by
  cases ha : algOf c.cfg
  case aes => rw [xform_aes_length c _ _ _ ha, hw (by simp [ha]), blockBytes_aes c.cfg hl ha, Nat.mul_comm]
  case pass =>
    rw [xform_pass c _ _ _ ha]
    exact (List.length_take_le' _ _).trans (List.length_take_le _ _)
  case sha256 | md5 =>
    rw [xform_hash_bytes c _ _ _ (by simp [ha, Alg.outputs])]
    exact Nat.zero_le _

theorem length_bytesOf (ws : List Word) : (bytesOf ws).length = 4 * ws.length := by
  induction ws with
  | nil => rfl
  | cons w ws ih =>
    rw [bytesOf_cons, List.length_append, ih, List.length_cons, Nat.mul_succ, Nat.add_comm]
    rfl

theorem digestBytes_length (md5 : Bool) (h : Vector Word 8) : (digestBytes md5 h).length = digestLen md5 := by
  cases md5 <;> simp [digestBytes, length_bytesOf, digestLen]

theorem pkcs7Unpad_length_le (c : List Byte) : (pkcs7Unpad c).length ≤ c.length := by
  unfold pkcs7Unpad
  split
  · exact le_rfl
  · exact List.length_take_le' _ _

/-- A cipher `FINALIZE` adds no more than the bytes it transforms, when what follows the transform adds none. -/
theorem finishCipher_out_le (s : State) (d : List Byte) (post : List Byte → List Byte) (ha : algOf s.cfg = .aes)
    (hp : ∀ l, (post l).length ≤ l.length) (hroom : s.out.length + d.length ≤ 4 * s.params.outWords) :
    (s.finishCipher d post).out.length ≤ 4 * s.params.outWords := by
  have hlen := (hp _).trans_eq (xform_aes_length s.ctx (d.length / 16) d s.xstate ha)
  simp only [State.finishCipher_out, List.length_append]
  omega

theorem consume_out_le (s : State) (r : Ready) (hl : configLegal s.cfg = true)
    (ho : s.out.length ≤ 4 * s.params.outWords) (hr : MayConsume s r) :
    (s.consume r).out.length ≤ 4 * s.params.outWords := by
  rw [State.consume_out, List.length_append]
  cases hout : (algOf s.cfg).outputs
  · rw [xform_hash_bytes s.ctx _ _ _ hout]
    exact ho
  · have hlen := xform_length_le s.ctx r s.buf s.xstate hl hr.whole
    have hroom := hr.room
    simp only [hout, true_and, not_lt] at hroom
    omega

/-- `FINALIZE` leaves `OUT` within its capacity (10_state R33). -/
theorem finalizeCmd_out_le (s u : State) (hl : configLegal s.cfg = true) (ho : s.out.length ≤ 4 * s.params.outWords)
    (h : finalizeCmd s = .ok u) : u.out.length ≤ 4 * s.params.outWords := by
  rcases finalizeCmd_cases s with ⟨ha, -, hf⟩ | ⟨ha, -, hf⟩ | ⟨-, hf⟩ | ⟨-, hf⟩ | ⟨-, hf⟩ <;> rw [hf] at h
  · obtain ⟨-, -, hroom, rfl⟩ := (finalizeDecrypt_ok s u).1 h
    refine finishCipher_out_le s _ _ ha (fun l => ?_) hroom
    split
    · exact le_rfl
    · exact pkcs7Unpad_length_le l
  · obtain ⟨-, -, hroom, rfl⟩ := (finalizeEncrypt_ok s u).1 h
    exact finishCipher_out_le s _ _ ha (fun l => le_rfl) hroom
  · obtain ⟨-, hroom, rfl⟩ := (finalizeHash_ok _ s u).1 h
    simpa [digestBytes_length] using hroom
  · obtain ⟨-, hroom, rfl⟩ := (finalizeHash_ok _ s u).1 h
    simpa [digestBytes_length] using hroom
  · obtain ⟨v, hv, rfl⟩ := (finalizePass_ok s u).1 h
    obtain ⟨r, hr, rfl⟩ := flushCmd_consumes s v hv
    exact consume_out_le s r hl ho hr

/-- `HASH4..7` are 0, as in an MD5 session (10_state R39). -/
def Md5Upper (h : Vector Word 8) : Prop := h[4] = 0 ∧ h[5] = 0 ∧ h[6] = 0 ∧ h[7] = 0

theorem md5Upper_md5Compress (h : Vector Word 8) (m : List Word) (hu : Md5Upper h) : Md5Upper (md5Compress h m) := hu

theorem md5Upper_xform (c : Ctx) (n : Nat) (d : List Byte) (x : XState) (ha : algOf c.cfg = .md5)
    (hu : Md5Upper x.hash) : Md5Upper (xform c n d x).xs.hash := by
  induction n generalizing d x with
  | zero => exact hu
  | succ n ih =>
    rw [xform_succ]
    refine ih _ _ ?_
    rw [blockXform, ha]
    exact md5Upper_md5Compress _ _ hu

theorem md5Upper_hashBlocks (n : Nat) (m : List Byte) (h : Vector Word 8) (hu : Md5Upper h) :
    Md5Upper (hashBlocks true n m h) := by
  induction n generalizing m h with
  | zero => exact hu
  | succ n ih => exact ih _ _ (md5Upper_md5Compress _ _ hu)

theorem md5Upper_finalizeCmd (s u : State) (ha : algOf s.cfg = .md5) (hu : Md5Upper s.hash)
    (h : finalizeCmd s = .ok u) : Md5Upper u.hash := by
  simp only [finalizeCmd, ha] at h
  obtain ⟨-, -, rfl⟩ := (finalizeHash_ok _ s u).1 h
  exact md5Upper_hashBlocks _ _ _ hu

end Sys2Proof.Machine
end

-- Proofs of 10_state: the invariant
section
/-! Every effect of an instruction keeps the invariant of Safety.lean: each named update of State does, and each shape of
a command does (10_state R33). -/

namespace Sys2Proof.Machine

section
variable {s u : State}

/-! ### The named updates -/

theorem Inv.respond (h : Inv s) (r : BusResponse) : Inv (s.respond r) := { h with }

theorem Inv.withInputs (h : Inv s) (l : List Input) : Inv { s with inputs := l } := { h with }

theorem Inv.setDin (h : Inv s) (v : Word) : Inv (s.setDin v) := { h with }

theorem Inv.setKey (h : Inv s) (i : Fin 8) (v : Word) : Inv (s.setKey i v) := { h with }

theorem Inv.setIv (h : Inv s) (i : Fin 4) (v : Word) : Inv (s.setIv i v) := { h with }

/-- A masked value has none of the other bits. -/
theorem masked_and_not (v m : Word) : v &&& m &&& ~~~m = 0 := by
  simp [BitVec.and_assoc]

theorem Inv.setCtrl (h : Inv s) (v : Word) : Inv (s.setCtrl v) := { h with ctrl_masked := masked_and_not v _ }

theorem Inv.setIntEn (h : Inv s) (v : Word) : Inv (s.setIntEn v) := { h with intEn_masked := masked_and_not v _ }

theorem Inv.clearError (h : Inv s) : Inv s.clearError :=
  { h with
    capture_clear := fun _ => ⟨rfl, rfl, rfl⟩
    capture_code := fun he => absurd he (by simp) }

theorem ErrCode.code_range (e : ErrCode) : 1 ≤ e.code.toNat ∧ e.code.toNat ≤ 7 := by cases e <;> decide

theorem Inv.raise (h : Inv s) (e : ErrCode) (v : Word) : Inv (s.raise e v) := by
  rcases raise_cases s e v with ⟨-, hr⟩ | ⟨herr, hr⟩ <;> rw [hr]
  · exact { h with capture_clear := fun he => absurd he (by simp), capture_code := fun _ => e.code_range }
  · exact { h with capture_clear := fun he => absurd he (by simp [herr]) }

/-- A read of `DOUT` only shortens `OUT`. -/
theorem Inv.popOut (h : Inv s) (n : Nat) (r : BusResponse) : Inv { s with out := s.out.drop n, resp := r } :=
  { h with
    out_fits := (List.drop_sublist n s.out).length_le.trans h.out_fits
    idle_empty := fun hp => by
      obtain ⟨hbuf, hout, htotal, hcfg⟩ := h.idle_empty hp
      exact ⟨hbuf, by simp [hout], htotal, hcfg⟩
    hash_out := fun hp hs => by simp [h.hash_out hp hs] }

theorem inv_resetWith (p : Params) (hp : p.Legal) : Inv (State.resetWith p) where
  params_legal := hp
  buf_fits := Nat.zero_le _
  out_fits := Nat.zero_le _
  ctrl_masked := BitVec.zero_and
  cfg_masked := BitVec.zero_and
  cfg_legal := (by decide : configLegal 0 = true)
  intEn_masked := BitVec.zero_and
  capture_clear := fun _ => ⟨rfl, rfl, rfl⟩
  capture_code := fun he => absurd he Bool.false_ne_true
  idle_empty := fun _ => ⟨rfl, rfl, rfl, rfl⟩
  done_empty := fun _ => rfl
  hash_out := fun _ _ => rfl
  hash_total := fun _ _ => rfl
  md5_upper := fun hi => absurd rfl hi
  schedules := fun hi => absurd rfl hi

theorem Inv.toReset (h : Inv s) : Inv s.toReset :=
  ((inv_resetWith s.params h.params_legal).withInputs s.inputs).respond s.resp

/-! ### The commands -/

theorem Inv.init (h : Inv s) (hc : configOk s.keyWr s.ivWr s.ctrl = true) :
    Inv (s.startSession.loadAlgorithm s.ctrl) where
  params_legal := by simpa using h.params_legal
  buf_fits := by simp
  out_fits := by simp
  ctrl_masked := by simpa using h.ctrl_masked
  cfg_masked := by simpa using h.ctrl_masked
  cfg_legal := by simpa using (Bool.and_eq_true_iff.1 hc).1
  intEn_masked := by simpa using h.intEn_masked
  capture_clear := by simpa using h.capture_clear
  capture_code := by simpa using h.capture_code
  idle_empty := fun hp => absurd hp (by simp)
  done_empty := fun _ => by simp
  hash_out := fun _ _ => by simp
  hash_total := fun _ _ => by simp
  md5_upper := fun _ ha => by
    rw [State.loadAlgorithm_cfg, State.startSession_cfg] at ha
    simp [State.loadAlgorithm, ha, md5Init]
  schedules := fun _ ha => by
    rw [State.loadAlgorithm_cfg, State.startSession_cfg] at ha
    exact ⟨s.key.toList, by simp, by simp [SchedulesOf, State.loadAlgorithm, ha]⟩

/-- What a data command of an `ACTIVE` session has to show: the rest of the invariant is in its frame. -/
theorem Inv.ofDataCommand (h : Inv s) (ha : s.phase = .active) (hf : SameOutside s u ∧ SameSession s u)
    (hphase : u.phase = .active ∨ u.phase = .done ∧ u.buf = [])
    (hbuf : u.buf.length ≤ 4 * s.params.bufWords) (hout : u.out.length ≤ 4 * s.params.outWords)
    (hhash : u.phase = .active → hashSession s = true → u.out = [] ∧ u.total.toNat % 64 = u.buf.length % 64)
    (hmd5 : algOf s.cfg = .md5 → Md5Upper u.hash) : Inv u := by
  obtain ⟨ho, hs⟩ := hf
  have hidle : u.phase ≠ .idle := by rcases hphase with hp | ⟨hp, -⟩ <;> simp [hp]
  have hsession : hashSession u = hashSession s := by rw [hashSession_eq, hashSession_eq, hs.cfg]
  exact {
    params_legal := by rw [ho.params]; exact h.params_legal
    buf_fits := by rw [ho.params]; exact hbuf
    out_fits := by rw [ho.params]; exact hout
    ctrl_masked := by rw [ho.ctrl]; exact h.ctrl_masked
    cfg_masked := by rw [hs.cfg]; exact h.cfg_masked
    cfg_legal := by rw [hs.cfg]; exact h.cfg_legal
    intEn_masked := by rw [ho.intEn]; exact h.intEn_masked
    capture_clear := by rw [ho.err, ho.errMulti, ho.errCode, ho.errInfo]; exact h.capture_clear
    capture_code := by rw [ho.err, ho.errCode]; exact h.capture_code
    idle_empty := fun hp => absurd hp hidle
    done_empty := fun hp => by
      rcases hphase with hact | ⟨-, hempty⟩
      · exact absurd (hact.symm.trans hp) (by decide)
      · exact hempty
    hash_out := fun hp hh => (hhash hp (hsession ▸ hh)).1
    hash_total := fun hp hh => (hhash hp (hsession ▸ hh)).2
    md5_upper := fun _ halg => hmd5 (hs.cfg ▸ halg)
    schedules := fun _ halg => by
      rw [hs.cfg] at halg
      obtain ⟨key, hlen, hkey⟩ := h.schedules (by simp [ha]) halg
      exact ⟨key, hlen, by rw [SchedulesOf, hs.cfg, hs.ks, hs.iks]; exact hkey⟩ }

theorem Inv.append (h : Inv s) (ha : s.phase = .active) (n : Nat) (hn : n ≤ 4)
    (hroom : s.buf.length + n ≤ 4 * s.params.bufWords) :
    Inv { s with buf := s.buf ++ dinBytes s.din n, total := s.total + BitVec.ofNat 64 n } := by
  have hlen : (s.buf ++ dinBytes s.din n).length = s.buf.length + n := by simp [dinBytes, wordBytes, hn]
  refine h.ofDataCommand ha (appendCmd_frame n s _ ((appendCmd_ok n s _).2 ⟨ha, hroom, rfl⟩)) (.inl ha)
    (hlen.trans_le hroom) h.out_fits (fun _ hs => ⟨h.hash_out ha hs, ?_⟩) (h.md5_upper (by simp [ha]))
  have htotal := h.hash_total ha hs
  simp only [hlen, BitVec.toNat_add, BitVec.toNat_ofNat]
  omega

/-- Whole blocks leave the count modulo 64 of a hash session as it is (43_hash R181). -/
theorem Inv.consume (h : Inv s) (r : Ready) (hr : MayConsume s r) : Inv (s.consume r) := by
  refine h.ofDataCommand hr.active
    ⟨⟨rfl, rfl, rfl, rfl, rfl, rfl, rfl, rfl, rfl, rfl, rfl, rfl, rfl, rfl⟩, ⟨rfl, rfl, rfl⟩⟩ (.inl hr.active)
    ((List.drop_sublist _ s.buf).length_le.trans h.buf_fits) (consume_out_le s r h.cfg_legal h.out_fits hr)
    (fun _ hs => ?_) fun halg => md5Upper_xform s.ctx _ _ s.xstate halg (h.md5_upper (by simp [hr.active]) halg)
  have houts : (algOf s.cfg).outputs = false := by simpa [hashSession_eq] using hs
  have hblocks : r.nbytes = r.nblk * 64 := by
    rw [← blockBytes_hash s.cfg h.cfg_legal houts]
    exact hr.whole fun hp => by simp [hp, Alg.outputs] at houts
  have htotal := h.hash_total hr.active hs
  have hle := hr.buffered
  refine ⟨by rw [State.consume_out, h.hash_out hr.active hs, xform_hash_bytes s.ctx _ _ _ houts]; rfl, ?_⟩
  simp only [State.consume_total, State.consume_buf, List.length_drop]
  omega

theorem Inv.finalize (h : Inv s) (hu : finalizeCmd s = .ok u) (hc : Closes s u) : Inv u :=
  h.ofDataCommand hc.active (finalizeCmd_frame s u hu) (.inr ⟨hc.done, hc.buf⟩) (by simp [hc.buf])
    (finalizeCmd_out_le s u h.cfg_legal h.out_fits hu) (fun hp => absurd (hc.done.symm.trans hp) (by decide))
    fun halg => md5Upper_finalizeCmd s u halg (h.md5_upper (by simp [hc.active]) halg) hu

theorem Inv.ran (h : Inv s) {k : Command} (hr : Ran s k u) : Inv u := by
  cases hr
  case nop => exact h
  case init hc => exact h.init hc
  case append n ha hroom hk => exact h.append ha n (le_four_of_mem_appendRows hk) hroom
  case consume r hr _ => exact h.consume r hr
  case finalize hu hc => exact h.finalize hu hc
  case sreset => exact h.toReset

/-! ### Instructions and steps -/

theorem Inv.exec (h : Inv s) (i : Instr) {t : State} (hx : exec i s = .next t) : Inv t := by
  cases exec_effect i s t hx
  case answer a => exact h.respond a
  case pop => exact h.popOut 4 _
  case underflow => exact (h.raise _ _).respond _
  case setCtrl v _ => exact (h.setCtrl v).respond _
  case clearError => exact h.clearError.respond _
  case setIntEn v _ => exact (h.setIntEn v).respond _
  case setDin v _ => exact (h.setDin v).respond _
  case setKey j v _ => exact (h.setKey j v).respond _
  case setIv j v _ => exact (h.setIv j v).respond _
  case illegal => exact (h.raise _ _).respond _
  case command k u _ hk => exact (h.ran (commandCore_ran k s u hk)).respond _
  case failed => exact (h.raise _ _).respond _

theorem Inv.serve (h : Inv s) (a : HostAccess) {t : State} (hx : serve a s = .next t) : Inv t := by
  unfold Machine.serve at hx
  split at hx
  · exact h.exec _ hx
  · rw [(busError_next s t).1 hx]
    exact h.respond _

end

/-- Settles O11: a step waits, serves one access, or resets. -/
theorem stepKeepsInvariant : Obligations.StepKeepsInvariant := by
  intro s t h hstep
  unfold step at hstep
  split at hstep
  · cases hstep; exact h
  · exact (h.withInputs _).serve _ hstep
  · cases hstep; exact (h.withInputs _).toReset.respond _

end Sys2Proof.Machine
end

-- Proofs of 20_memory: the map of the window
section
/-! Which accesses are instructions (20_memory R63, R64, R67): those 32 bits wide at the offset of a mapped register. The
unmapped offsets of R64 are exactly the aligned ones no such register has. -/

namespace Sys2Proof.Machine

/-- The fourteen registers below the arrays, in the order of their offsets (10_state R22). -/
def singleRegs : List Reg :=
  [.id, .ctrl, .status, .errInfo, .intEn, .cmd, .din, .dout, .bufBytes, .outBytes, .totalLo, .totalHi, .cfg, .cap]

/-- A mapped register stands at an aligned offset that 20_memory R64 does not list. -/
theorem offset_aligned_not_unmapped (r : Reg) (hr : r.mapped = true) :
    r.offset.toNat % 4 = 0 ∧ ¬ Spec.unmapped r.offset.toNat := by
  unfold Spec.unmapped
  cases r
  case key i | iv i | chain i | hash i => simp only [Reg.offset, BitVec.toNat_ofNat]; omega
  case ks i | iks i =>
    have hi : i.val < 60 := of_decide_eq_true hr
    simp only [Reg.offset, BitVec.toNat_ofNat]
    omega
  all_goals decide

/-- Every other aligned offset is a mapped register's. -/
theorem exists_mapped_at_offset (n : Nat) (hn : n < 0x400) (h4 : n % 4 = 0) (hu : ¬ Spec.unmapped n) :
    ∃ r : Reg, r.mapped = true ∧ n = r.offset.toNat := by
  obtain ⟨k, rfl⟩ := Nat.dvd_of_mod_eq_zero h4
  unfold Spec.unmapped at hu
  have hrange : k < 14 ∨ (16 ≤ k ∧ k < 24) ∨ (24 ≤ k ∧ k < 28) ∨ (28 ≤ k ∧ k < 32) ∨ (32 ≤ k ∧ k < 40) ∨
      (64 ≤ k ∧ k < 124) ∨ (128 ≤ k ∧ k < 188) := by omega
  have hoff : ∀ b i, 4 * k = b + 4 * i → 4 * k = (BitVec.ofNat 10 (b + 4 * i)).toNat := fun b i h => by
    rw [← h, BitVec.toNat_ofNat, Nat.mod_eq_of_lt hn]
  rcases hrange with h | h | h | h | h | h | h
  · exact ⟨singleRegs.getD k .id, (by decide : ∀ k < 14, (singleRegs.getD k .id).mapped = true ∧
      4 * k = (singleRegs.getD k .id).offset.toNat) k h⟩
  · exact ⟨.key ⟨k - 16, by omega⟩, rfl, hoff 0x040 (k - 16) (by omega)⟩
  · exact ⟨.iv ⟨k - 24, by omega⟩, rfl, hoff 0x060 (k - 24) (by omega)⟩
  · exact ⟨.chain ⟨k - 28, by omega⟩, rfl, hoff 0x070 (k - 28) (by omega)⟩
  · exact ⟨.hash ⟨k - 32, by omega⟩, rfl, hoff 0x080 (k - 32) (by omega)⟩
  · obtain ⟨j, rfl⟩ := Nat.exists_eq_add_of_le h.1
    have hj : j < 60 := by omega
    exact ⟨.ks ⟨j, by omega⟩, decide_eq_true hj, hoff 0x100 j (by omega)⟩
  · obtain ⟨j, rfl⟩ := Nat.exists_eq_add_of_le h.1
    have hj : j < 60 := by omega
    exact ⟨.iks ⟨j, by omega⟩, decide_eq_true hj, hoff 0x200 j (by omega)⟩

/-- Only a 32-bit access at a mapped register's offset is an instruction. -/
theorem width_and_offset_of_decodeAccess (x : HostAccess) (i : Instr) (h : decodeAccess x = .ok i) :
    x.width = 32 ∧ ∃ r : Reg, r.mapped = true ∧ x.addr % 0x400 = r.offset.toNat := by
  by_cases hw : x.width = 32
  · have hreg : ∃ r, regAt (BitVec.ofNat 10 x.addr) = .ok r := by
      cases hr : regAt (BitVec.ofNat 10 x.addr)
      case ok r => exact ⟨r, rfl⟩
      case error e => cases hx : x.isWrite <;> simp [decodeAccess, fetch, decode, hw, hx, hr, Except.map] at h
    obtain ⟨r, hr⟩ := hreg
    obtain ⟨hm, hoff⟩ := regAt_ok _ r hr
    exact ⟨hw, r, hm, by rw [hoff]; rfl⟩
  · simp [decodeAccess, fetch, hw] at h

/-- An access that is no instruction gets `bus_error` and changes nothing (20_memory R63, R64). -/
theorem step_rejected (s : State) (x : HostAccess) (rest : List Input) (e : Reject)
    (hs : s.inputs = .access x :: rest) (hx : decodeAccess x = .error e) :
    step s = .next { s with inputs := rest, resp := .busError } := by
  simp only [step, hs, serve, hx]
  rfl

/-- Settles O6: the unmapped offsets are the aligned ones no mapped register has. -/
theorem accessesOutsideTheMapGetBusError : Obligations.AccessesOutsideTheMapGetBusError := by
  refine ⟨fun s x rest hs hbad => ?_, fun x hw h4 hu => ?_⟩
  · cases hx : decodeAccess x
    case error e => exact step_rejected s x rest e hs hx
    case ok i =>
      obtain ⟨hw, r, hr, ha⟩ := width_and_offset_of_decodeAccess x i hx
      obtain ⟨h4, hu⟩ := offset_aligned_not_unmapped r hr
      rw [← ha] at h4 hu
      rcases hbad with hbad | hbad | hbad
      · exact absurd hw hbad
      · omega
      · exact absurd hbad hu
  · obtain ⟨r, hr, ha⟩ := exists_mapped_at_offset (x.addr % 0x400) (Nat.mod_lt _ (by decide)) (by omega) hu
    refine ⟨_, ?_, decodeAccess_at_offset x r hw hr ha⟩
    cases x.isWrite
    · exact (Instr.wf_ofRead r).trans hr
    · exact (Instr.wf_ofWrite x.data r).trans hr

end Sys2Proof.Machine
end

-- Proofs of 20_memory: a word through a PASS session
section
/-! One byte order in and out (20_memory R60): APPEND 4 takes the bytes of DIN in stream order, a PASS flush moves them
to OUT as they are, and a read of DOUT puts them together again. -/

namespace Sys2Proof.Machine

theorem runInstrs_cons {i : Instr} {s t : State} (l : List Instr) (h : exec i s = .next t) :
    Spec.runInstrs (i :: l) s = Spec.runInstrs l t := by
  rw [Spec.runInstrs, h]

/-- APPEND 4 with room takes the whole data word (42_stream R150). -/
theorem exec_append4 (s : State) (ha : s.phase = .active) (hroom : s.buf.length + 4 ≤ 4 * s.params.bufWords) :
    exec .append4 s =
      .next { s with buf := s.buf ++ wordBytes s.din, total := s.total + 4, resp := .writeDone } := by
  refine (exec_command .append4 s).trans ?_
  rw [show commandCore .append4 s = _ from (appendCmd_ok 4 s _).2 ⟨ha, hroom, rfl⟩]
  rfl

/-- A flush of a `PASS` session moves `BUF` to the end of `OUT` (42_stream R153, R155). -/
theorem consume_pass_flush (s : State) (hp : algOf s.cfg = .pass) :
    s.consume (ready s.cfg s.buf.length true) = { s with buf := [], out := s.out ++ s.buf } := by
  obtain ⟨hnblk, hnbytes⟩ := ready_true s.cfg s.buf.length
  have hx : { xs := s.xstate, bytes := s.buf } =
      xform s.ctx (ready s.cfg s.buf.length true).nblk (s.buf.take (ready s.cfg s.buf.length true).nbytes)
        s.xstate := by
    rw [xform_pass s.ctx _ _ _ hp, hnblk, hnbytes, List.take_length, State.ctx_cfg,
      List.take_of_length_le (le_ceil_mul _ _ (blockBytes_pos s.cfg))]
  rw [consume_eq s _ _ hx, hnbytes, List.drop_length, if_pos (.inr hp)]
  rfl

theorem flushCmd_pass (s : State) (ha : s.phase = .active) (hp : algOf s.cfg = .pass)
    (hroom : s.out.length + s.buf.length ≤ 4 * s.params.outWords) :
    flushCmd s = .ok { s with buf := [], out := s.out ++ s.buf } :=
  (flushCmd_ok s _).2 ⟨ha, fun h => h.1 hp, fun h => Nat.not_lt.2 hroom h.2, consume_pass_flush s hp⟩

/-- FLUSH of a `PASS` session with room. -/
theorem exec_flush_pass (s : State) (ha : s.phase = .active) (hp : algOf s.cfg = .pass)
    (hroom : s.out.length + s.buf.length ≤ 4 * s.params.outWords) :
    exec .flush s = .next { s with buf := [], out := s.out ++ s.buf, resp := .writeDone } := by
  refine (exec_command .flush s).trans ?_
  rw [show commandCore .flush s = _ from flushCmd_pass s ha hp hroom]
  rfl

/-- A read of `DOUT` that finds bytes pops up to four (40_host_access R104). -/
theorem exec_rdDout_pops (s : State) (h : s.out ≠ []) :
    exec .rdDout s = .next { s with out := s.out.drop 4, resp := .readData (wordAt s.out 0) } := by
  have hnext : ∃ t, execRdDout s = .next t := by
    unfold execRdDout
    split <;> exact ⟨_, rfl⟩
  obtain ⟨t, ht⟩ := hnext
  rcases execRdDout_next s t ht with ⟨hempty, -⟩ | ⟨-, rfl⟩
  · exact absurd hempty h
  · exact ht

/-- `s` once `v` has been written to `DIN` and appended, with these bytes in `BUF` and `OUT`. -/
def State.passing (s : State) (v : Word) (buf out : List Byte) : State :=
  { s with din := v, total := s.total + 4, buf := buf, out := out, resp := .writeDone }

/-- Settles O37: the bytes of the word go from `DIN` to `BUF`, to `OUT`, and back into a word. -/
theorem wordInIsWordOut : Obligations.WordInIsWordOut := by
  intro s v ha hp hbuf hout hl
  obtain ⟨hbufWords, -, houtWords, -⟩ := hl
  have hdin : exec (.wrDin v) s = .next ((s.setDin v).respond .writeDone) := rfl
  have happend : exec .append4 ((s.setDin v).respond .writeDone) = .next (s.passing v (wordBytes v) []) := by
    rw [exec_append4 ((s.setDin v).respond .writeDone) ha (by simp [hbuf]; omega)]
    simp [State.passing, State.respond, State.setDin, hbuf, hout]
  have hroom : 0 + 4 ≤ 4 * s.params.outWords := by omega
  have hflush : exec .flush (s.passing v (wordBytes v) []) = .next (s.passing v [] (wordBytes v)) :=
    exec_flush_pass (s.passing v (wordBytes v) []) ha hp hroom
  have hread : exec .rdDout (s.passing v [] (wordBytes v)) = .next ((s.passing v [] []).respond (.readData v)) := by
    rw [exec_rdDout_pops (s.passing v [] (wordBytes v)) (List.cons_ne_nil _ _),
      show wordAt (s.passing v [] (wordBytes v)).out 0 = v from wordOf_byteOf v]
    rfl
  refine ⟨(s.passing v [] []).respond (.readData v), ?_, rfl, rfl, rfl, rfl, rfl, rfl, rfl⟩
  rw [runInstrs_cons _ hdin, runInstrs_cons _ happend, runInstrs_cons _ hflush, runInstrs_cons _ hread, Spec.runInstrs]

end Sys2Proof.Machine
end

-- Proofs of 20_memory: the room in OUT
section
/-! The capacities of 00_scope R6 leave `OUT` room for everything one command can push (20_memory R69, R70): the bytes
`BUF` may hold and a block of padding, or a digest. -/

namespace Sys2Proof.Machine

/-- The commands whose output goes to `OUT`. -/
def outputCommands : List Command := [.process, .flush, .finalize]

/-- A PKCS7 pad adds at most a block (44_cipher R223). -/
theorem pkcs7Pad_length_le (x : List Byte) : (pkcs7Pad x).length ≤ x.length + 16 := by
  simp [pkcs7Pad]

theorem encryptInput_length_le (s : State) : (encryptInput s).length ≤ s.buf.length + 16 := by
  unfold encryptInput
  split
  · omega
  · exact pkcs7Pad_length_le s.buf

theorem digestLen_le (md5 : Bool) : digestLen md5 ≤ 32 := by cases md5 <;> decide

/-- The error capture is as it was. -/
def SameCapture (s t : State) : Prop :=
  t.err = s.err ∧ t.errMulti = s.errMulti ∧ t.errCode = s.errCode ∧ t.errInfo = s.errInfo

/-- Why a command that outputs is refused when `OUT` has room. -/
def RefusedWithRoom (k : Command) (s : State) (e : ErrCode) : Prop :=
  (s.phase ≠ .active ∧ .sequence = e) ∨ (Spec.partialRefused k.toInstr s ∧ .partialBlock = e)

theorem RefusedWithRoom.code_ne_five {k : Command} {s : State} {e : ErrCode} (h : RefusedWithRoom k s e) :
    e.code ≠ 5 := by
  rcases h with ⟨-, rfl⟩ | ⟨-, rfl⟩ <;> decide

section
variable {s : State}

/-- An empty `OUT` has room for the bytes in `BUF` and a block. -/
theorem Inv.not_outFull (h : Inv s) (ho : s.out = []) {n : Nat} (hn : n ≤ s.buf.length + 16) : ¬ s.outFull n := by
  obtain ⟨-, -, hout, -⟩ := h.params_legal
  have hbuf := h.buf_fits
  rw [State.outFull, ho, List.length_nil]
  omega

/-- An empty `OUT` has room for a digest. -/
theorem Inv.not_outFull_digest (h : Inv s) (ho : s.out = []) (md5 : Bool) : ¬ s.outFull (digestLen md5) := by
  obtain ⟨hbuf, -, hout, -⟩ := h.params_legal
  have hdigest := digestLen_le md5
  rw [State.outFull, ho, List.length_nil]
  omega

theorem Inv.process_refused (h : Inv s) (ho : s.out = []) {e : ErrCode} (he : processCmd s = .error e) :
    RefusedWithRoom .process s e := by
  rcases (processCmd_error s e).1 he with hseq | ⟨-, ⟨-, hfull⟩, -⟩
  · exact .inl hseq
  · exact absurd hfull (h.not_outFull ho (Nat.le_add_right_of_le (ready_false_le _ _)))

/-- A flush, also when it is a `PASS` session's `FINALIZE`, is refused for a partial block only outside `PASS`. -/
theorem Inv.flushCmd_refused (h : Inv s) (ho : s.out = []) {e : ErrCode} (he : flushCmd s = .error e) :
    (s.phase ≠ .active ∧ .sequence = e) ∨
      ((algOf s.cfg ≠ .pass ∧ s.buf.length % blockBytes s.cfg ≠ 0) ∧ .partialBlock = e) := by
  rcases (flushCmd_error s e).1 he with hseq | ⟨-, hpart | ⟨-, ⟨-, hfull⟩, -⟩⟩
  · exact .inl hseq
  · exact .inr hpart
  · exact absurd hfull (h.not_outFull ho (Nat.le_add_right _ _))

theorem Inv.finalize_refused (h : Inv s) (ho : s.out = []) {e : ErrCode} (he : finalizeCmd s = .error e) :
    RefusedWithRoom .finalize s e := by
  have hhash : ∀ md5, finalizeHash md5 s = .error e → RefusedWithRoom .finalize s e := fun md5 hm => by
    rcases (finalizeHash_error md5 s e).1 hm with hseq | ⟨-, hfull, -⟩
    · exact .inl hseq
    · exact absurd hfull (h.not_outFull_digest ho md5)
  rcases finalizeCmd_cases s with ⟨ha, hd, hf⟩ | ⟨ha, -, hf⟩ | ⟨-, hf⟩ | ⟨-, hf⟩ | ⟨hp, hf⟩ <;> rw [hf] at he
  · rcases (finalizeDecrypt_error s e).1 he with hseq | ⟨-, ⟨hpart, rfl⟩ | ⟨-, hfull, -⟩⟩
    · exact .inl hseq
    · exact .inr ⟨.inr ⟨rfl, ha, .inl hd, hpart⟩, rfl⟩
    · exact absurd hfull (h.not_outFull ho (Nat.le_add_right _ _))
  · rcases (finalizeEncrypt_error s e).1 he with hseq | ⟨-, ⟨⟨hn, hpart⟩, rfl⟩ | ⟨-, hfull, -⟩⟩
    · exact .inl hseq
    · exact .inr ⟨.inr ⟨rfl, ha, .inr hn, hpart⟩, rfl⟩
    · exact absurd hfull (h.not_outFull ho (encryptInput_length_le s))
  · exact hhash false he
  · exact hhash true he
  · rcases h.flushCmd_refused ho ((finalizePass_error s e).1 he) with hseq | ⟨⟨hnp, -⟩, -⟩
    · exact .inl hseq
    · exact absurd hp hnp

/-- With `OUT` empty these commands are refused outside `ACTIVE` or for a partial block, and never for room. -/
theorem Inv.output_refused (h : Inv s) (ho : s.out = []) {k : Command} (hk : k ∈ outputCommands) {e : ErrCode}
    (he : commandCore k s = .error e) : RefusedWithRoom k s e := by
  simp only [outputCommands, List.mem_cons, List.not_mem_nil, or_false] at hk
  rcases hk with rfl | rfl | rfl
  · exact h.process_refused ho he
  · rcases h.flushCmd_refused ho he with hseq | ⟨hpart, rfl⟩
    · exact .inl hseq
    · exact .inr ⟨.inl ⟨rfl, hpart⟩, rfl⟩
  · exact h.finalize_refused ho he

/-- What such a command leaves: the capture as it was, or the error it was refused with. -/
theorem Inv.output_next (h : Inv s) (ho : s.out = []) {k : Command} (hk : k ∈ outputCommands) {t : State}
    (hx : Machine.exec k.toInstr s = .next t) :
    SameCapture s t ∨ ∃ e, RefusedWithRoom k s e ∧ t = (s.raise e k.word).respond .writeDone := by
  rw [exec_command] at hx
  rcases endCommand_next _ _ _ _ hx with ⟨u, hu, rfl⟩ | ⟨e, he, rfl⟩
  · have hne : k ≠ .sreset := by rintro rfl; exact absurd hk (by decide)
    have hframe := (commandCore_frame k s u hu).1 hne
    exact .inl ⟨hframe.err, hframe.errMulti, hframe.errCode, hframe.errInfo⟩
  · exact .inr ⟨e, h.output_refused ho hk he, rfl⟩

/-- With no error held and `OUT` empty none of them leaves the overflow code. -/
theorem Inv.output_errCode_ne_five (h : Inv s) (ho : s.out = []) (herr : s.err = false) {k : Command}
    (hk : k ∈ outputCommands) {t : State} (hx : Machine.exec k.toInstr s = .next t) : t.errCode ≠ 5 := by
  rcases h.output_next ho hk hx with ⟨-, -, hcode, -⟩ | ⟨e, he, rfl⟩
  · obtain ⟨-, hzero, -⟩ := h.capture_clear herr
    rw [hcode, hzero]
    decide
  · simpa [herr] using he.code_ne_five

/-- In an `ACTIVE` session, without a partial block that stops it, such a command leaves the capture as it was. -/
theorem Inv.output_keeps_capture (h : Inv s) (ho : s.out = []) (ha : s.phase = .active) {k : Command}
    (hk : k ∈ outputCommands) (hp : ¬ Spec.partialRefused k.toInstr s) {t : State}
    (hx : Machine.exec k.toInstr s = .next t) : SameCapture s t := by
  rcases h.output_next ho hk hx with hsame | ⟨e, ⟨hna, -⟩ | ⟨hpart, -⟩, -⟩
  · exact hsame
  · exact absurd ha hna
  · exact absurd hpart hp

end

/-- Settles O59: the run with the capture cleared starts from a state of the invariant too. -/
theorem emptyOutNeverOverflows : Obligations.EmptyOutNeverOverflows := by
  intro i s t t0 hi h ho hx hx0
  have hk : ∃ k ∈ outputCommands, i = k.toInstr := by
    rcases hi with rfl | rfl | rfl
    exacts [⟨.process, by decide, rfl⟩, ⟨.flush, by decide, rfl⟩, ⟨.finalize, by decide, rfl⟩]
  obtain ⟨k, hk, rfl⟩ := hk
  have h0 : Inv (Spec.cleared s) := h.clearError
  refine ⟨h0.output_errCode_ne_five ho rfl hk hx0, fun herr => h.output_errCode_ne_five ho herr hk hx,
    fun ha hp => ⟨?_, h.output_keeps_capture ho ha hk hp hx⟩⟩
  obtain ⟨herr, -⟩ := h0.output_keeps_capture ho ha hk hp hx0
  exact herr

end Sys2Proof.Machine
end

-- Proofs of 30_encoding: what a form decodes to
section
/-! A command word that decodes is a command's word (30_encoding R84), and a bus form that decodes is at a mapped
register's offset (10_state R22). So `decode` and `encode` undo each other. -/

namespace Sys2Proof.Machine

/-- The ten command words are the forms of format CMD that decode (30_encoding R84, R87). -/
theorem decode_cmd_ok_iff (c : Word) (i : Instr) :
    decode (.cmd c) = .ok i ↔ ∃ k : Command, c = k.word ∧ i = k.toInstr := by
  refine ⟨fun h => ?_, ?_⟩
  · cases hc : decodeCommand c with
    | ok k => exact ⟨k, decodeCommand_ok c k hc, by simpa [decode, hc, Except.map, eq_comm] using h⟩
    | error e => simp [decode, hc, Except.map] at h
  · rintro ⟨k, rfl, rfl⟩
    rw [decode, decodeCommand_word, Except.map]

/-- Whatever row is made of a register (its read, its write of a value), it is found at the offsets of the mapped
registers and nowhere else (10_state R22, 20_memory R64). -/
theorem map_regAt_ok_iff (a : BitVec 10) (row : Reg → Instr) (i : Instr) :
    (regAt a).map row = .ok i ↔ ∃ r : Reg, r.mapped = true ∧ a = r.offset ∧ i = row r := by
  refine ⟨fun h => ?_, ?_⟩
  · cases hr : regAt a with
    | ok r =>
      obtain ⟨hm, hoff⟩ := regAt_ok a r hr
      exact ⟨r, hm, hoff.symm, by simpa [hr, Except.map, eq_comm] using h⟩
    | error e => simp [hr, Except.map] at h
  · rintro ⟨r, hm, rfl, rfl⟩
    rw [regAt_offset r hm, Except.map]

theorem decode_read_ok_iff (a : BitVec 10) (i : Instr) :
    decode (.read a) = .ok i ↔ ∃ r : Reg, r.mapped = true ∧ a = r.offset ∧ i = .ofRead r :=
  map_regAt_ok_iff a _ i

theorem decode_write_ok_iff (a : BitVec 10) (v : Word) (i : Instr) :
    decode (.write a v) = .ok i ↔ ∃ r : Reg, r.mapped = true ∧ a = r.offset ∧ i = .ofWrite v r :=
  map_regAt_ok_iff a _ i

theorem decode_word (k : Command) : decode (.cmd k.word) = .ok k.toInstr :=
  (decode_cmd_ok_iff _ _).2 ⟨k, rfl, rfl⟩

theorem decode_read_offset (r : Reg) (h : r.mapped = true) : decode (.read r.offset) = .ok (.ofRead r) :=
  (decode_read_ok_iff _ _).2 ⟨r, h, rfl, rfl⟩

theorem decode_write_offset (r : Reg) (v : Word) (h : r.mapped = true) :
    decode (.write r.offset v) = .ok (.ofWrite v r) :=
  (decode_write_ok_iff _ _ _).2 ⟨r, h, rfl, rfl⟩

theorem Command.wf_toInstr (k : Command) : k.toInstr.wf = true := by cases k <;> rfl

/-- Settles O2: a row of a command, or of a register without an index, has one encoding up to the value written, which
the decoder evaluates; the row of an indexed register is found at the register's offset. -/
theorem decodeOfEncodeGivesTheInstruction : Obligations.DecodeOfEncodeGivesTheInstruction := by
  intro i hwf
  cases i
  case rdKey j => exact decode_read_offset (.key j) rfl
  case wrKey j v => exact decode_write_offset (.key j) v rfl
  case rdIv j => exact decode_read_offset (.iv j) rfl
  case wrIv j v => exact decode_write_offset (.iv j) v rfl
  case rdChain j => exact decode_read_offset (.chain j) rfl
  case wrChain j v => exact decode_write_offset (.chain j) v rfl
  case rdHash j => exact decode_read_offset (.hash j) rfl
  case wrHash j v => exact decode_write_offset (.hash j) v rfl
  case rdKs j => exact decode_read_offset (.ks j) hwf
  case wrKs j v => exact decode_write_offset (.ks j) v hwf
  case rdIks j => exact decode_read_offset (.iks j) hwf
  case wrIks j v => exact decode_write_offset (.iks j) v hwf
  all_goals rfl

/-- Settles O3: a form that decodes is a command's word, or a read or a write at a mapped register's offset. -/
theorem decodedFormIsItsEncoding : Obligations.DecodedFormIsItsEncoding := by
  intro e i h
  cases e with
  | cmd c =>
    obtain ⟨k, rfl, rfl⟩ := (decode_cmd_ok_iff c i).1 h
    exact ⟨Command.wf_toInstr k, encode_toInstr k⟩
  | read a =>
    obtain ⟨r, hr, rfl, rfl⟩ := (decode_read_ok_iff a i).1 h
    exact ⟨(Instr.wf_ofRead r).trans hr, encode_ofRead r⟩
  | write a v =>
    obtain ⟨r, hr, rfl, rfl⟩ := (decode_write_ok_iff a v i).1 h
    exact ⟨(Instr.wf_ofWrite v r).trans hr, encode_ofWrite v r⟩

end Sys2Proof.Machine
end

-- Proofs of 30_encoding: illegal command words
section
/-! The classes of 30_encoding R87 against the ten words of R84, both read off the three fields of the word. -/

namespace Sys2Proof.Machine

theorem word_mem_commandWords (k : Command) : k.word ∈ Spec.commandWords := by cases k <;> decide

/-- The ten words by the fields of R81: no reserved bit, and an opcode of R84 with an `ARG` legal for it. -/
theorem mem_commandWords (c : Word) : c ∈ Spec.commandWords ↔ cmdRsv c = 0 ∧
    ((cmdOpc c ∈ [0, 1, 3, 4, 5, 15] ∧ cmdArg c = 0) ∨ (cmdOpc c = 2 ∧ cmdArg c ∈ [1, 2, 3, 4])) := by
  have hfields := command_fields c
  simp only [Spec.commandWords, List.mem_cons, List.not_mem_nil, or_false]
  bv_omega

/-- R87's classes are the values of `RSV`, `OPC` and `ARG` that none of the ten words has. -/
theorem illegalWord_iff (c : Word) : Spec.illegalWord c ↔ c ∉ Spec.commandWords := by
  simp only [mem_commandWords, Spec.illegalWord, cmdRsv, cmdOpc, cmdArg, List.mem_cons, List.not_mem_nil, or_false]
  generalize c.extractLsb' 0 8 = opc, c.extractLsb' 8 3 = arg, c.extractLsb' 11 21 = rsv
  bv_omega

/-- Settles O4: a write of `CMD` runs a command's word or raises, and an illegal word is no command's. -/
theorem illegalCommandWordsRaiseIllegalCmd : Obligations.IllegalCommandWordsRaiseIllegalCmd := by
  refine ⟨illegalWord_iff, fun c s hc => ?_⟩
  rcases execWrCmd_cases c s with ⟨k, rfl, -⟩ | ⟨-, -, hraise⟩
  · exact absurd (word_mem_commandWords k) ((illegalWord_iff _).1 hc)
  · exact hraise.trans (by rw [raise_eq_captured]; rfl)

end Sys2Proof.Machine
end

-- Proofs of 30_encoding: table words
section
/-! Words numbered as the opcode table numbers its rows (assumption log 14), and the step that runs one placed as the
next access. -/

namespace Sys2Proof.Machine

/-- A table word decodes when it is the number of a form that decodes. -/
theorem decodeTableWord_eq_some (nbits w : Nat) (i : Instr) :
    decodeTableWord nbits w = some i ↔ ∃ e, encodedOfTableWord nbits w = some e ∧ decode e = .ok i := by
  unfold decodeTableWord
  cases encodedOfTableWord nbits w with
  | none => simp
  | some e => cases hd : decode e <;> simp [Except.toOption, hd]

theorem decodeTableWord_word (k : Command) : decodeTableWord 32 k.word.toNat = some k.toInstr :=
  (decodeTableWord_eq_some ..).2 ⟨_, by simp [encodedOfTableWord, k.word.isLt], decode_word k⟩

theorem decodeTableWord_read (r : Reg) (h : r.mapped = true) :
    decodeTableWord 16 r.offset.toNat = some (.ofRead r) :=
  (decodeTableWord_eq_some ..).2 ⟨_, by simp [encodedOfTableWord, r.offset.isLt], decode_read_offset r h⟩

/-- The key of a write has bit 10 set (30_encoding R82). -/
theorem encodedOfTableWord_write (a : BitVec 10) : encodedOfTableWord 16 (0x400 + a.toNat) = some (.write a 0) := by
  have ha := a.isLt
  have hkey : BitVec.ofNat 10 (0x400 + a.toNat) = a := BitVec.eq_of_toNat_eq (by rw [BitVec.toNat_ofNat]; omega)
  rw [encodedOfTableWord, if_pos (by decide), if_neg (by omega), if_pos (by omega), hkey]

theorem decodeTableWord_write (r : Reg) (h : r.mapped = true) :
    decodeTableWord 16 (0x400 + r.offset.toNat) = some (.ofWrite 0 r) :=
  (decodeTableWord_eq_some ..).2 ⟨_, encodedOfTableWord_write r.offset, decode_write_offset r 0 h⟩

/-- Settles O1: the written-out rows are those of the commands and of the mapped registers. -/
theorem tableWordsDecodeToTheirRows : Obligations.TableWordsDecodeToTheirRows := by
  refine ⟨decodeTableWord_word .nop, decodeTableWord_word .init, decodeTableWord_word .append3,
    decodeTableWord_word .finalize, decodeTableWord_word .sreset, decodeTableWord_read .status rfl,
    decodeTableWord_write .cmd rfl, decodeTableWord_read (.key 7) rfl, decodeTableWord_write (.iv 3) rfl,
    decodeTableWord_read (.ks 59) rfl, by decide, by decide, fun p hp => ?_, fun row hrow => ?_⟩
  · obtain ⟨k, rfl⟩ := command_of_mem_commandRows p hp
    exact decodeTableWord_word k
  · obtain ⟨r, hr, rfl⟩ := register_of_mem_registerRows row hrow
    exact ⟨decodeTableWord_read r hr, decodeTableWord_write r hr⟩

/-- The access of a form that decodes makes the step run the form's instruction (30_encoding R80, R89). -/
theorem step_toAccess (s : State) (rest : List Input) (e : Encoded) (i : Instr)
    (hs : s.inputs = .access e.toAccess :: rest) (h : decode e = .ok i) :
    step s = exec i { s with inputs := rest } := by
  cases e with
  | cmd c =>
    obtain ⟨k, rfl, rfl⟩ := (decode_cmd_ok_iff c i).1 h
    exact step_command s _ rest k hs rfl rfl rfl rfl
  | read a =>
    obtain ⟨r, hr, rfl, rfl⟩ := (decode_read_ok_iff a i).1 h
    exact step_access s _ rest _ hs (decodeAccess_at_offset _ r rfl hr (Nat.mod_eq_of_lt r.offset.isLt))
  | write a v =>
    obtain ⟨r, hr, rfl, rfl⟩ := (decode_write_ok_iff a v i).1 h
    exact step_access s _ rest _ hs (decodeAccess_at_offset _ r rfl hr (Nat.mod_eq_of_lt r.offset.isLt))

/-- Settles O8: the word's form is placed as the access that carries it. -/
theorem fetchedTableWordRuns : Obligations.FetchedTableWordRuns := by
  intro s nbits w i h
  obtain ⟨e, he, hi⟩ := (decodeTableWord_eq_some nbits w i).1 h
  have hplaced : s.withFetchWord nbits w = { s with inputs := .access e.toAccess :: s.inputs } := by
    rw [State.withFetchWord, he]
  rw [hplaced]
  exact step_toAccess _ s.inputs e i rfl hi

end Sys2Proof.Machine
end

-- Proofs of 40_host_access: the reads
section
/-! One law for the reads of 40_host_access R100 and R109, by the register read, and the two branches of the read of
`DOUT` (R104). -/

namespace Sys2Proof.Machine

/-- A read of any register but `DOUT` has no side effect (40_host_access R109). -/
theorem exec_ofRead (r : Reg) (hd : r ≠ .dout) (s : State) : exec (.ofRead r) s = readReg r s := by
  cases r
  case dout => exact absurd rfl hd
  all_goals rfl

theorem exec_ofRead_mapped (r : Reg) (hd : r ≠ .dout) (hm : r.mapped = true) (s : State) :
    exec (.ofRead r) s = .next (s.respond (.readData (regValue s r))) := by
  rw [exec_ofRead r hd, readReg, if_pos hm, readValue]

theorem exec_ofRead_unmapped (r : Reg) (hd : r ≠ .dout) (hm : ¬ r.mapped = true) (s : State) :
    exec (.ofRead r) s = .next (s.respond .busError) := by
  rw [exec_ofRead r hd, readReg, if_neg hm, busError]

/-- An index of a schedule is the 6-bit field `a[7:2]`: 0 to 59 are mapped, 60 to 63 are not (10_state R22). -/
theorem mapped_ks (i : Fin 64) : (Reg.ks i).mapped = true ↔ i.val < 60 := decide_eq_true_iff

theorem mapped_iks (i : Fin 64) : (Reg.iks i).mapped = true ↔ i.val < 60 := decide_eq_true_iff

theorem regValue_ks (s : State) (i : Fin 64) (h : i.val < 60) : regValue s (.ks i) = s.ks[i.val] := by
  simp [regValue, Vector.getD, h]

theorem regValue_iks (s : State) (i : Fin 64) (h : i.val < 60) : regValue s (.iks i) = s.iks[i.val] := by
  simp [regValue, Vector.getD, h]

/-- Settles O13: each register's content is `regValue`, which the schedules have at the mapped indexes only. -/
theorem readsReturnRegisterContents : Obligations.ReadsReturnRegisterContents := by
  intro s
  have hread (r : Reg) (hd : r ≠ .dout := by simp) (hm : r.mapped = true := by rfl) :
      exec (.ofRead r) s = .next (s.respond (.readData (regValue s r))) :=
    exec_ofRead_mapped r hd hm s
  refine ⟨hread .id, hread .ctrl, hread .status, hread .errInfo, hread .intEn, hread .cmd, hread .din,
    hread .bufBytes, hread .outBytes, hread .totalLo, hread .totalHi, hread .cfg, hread .cap, fun i => hread (.key i),
    fun i => hread (.iv i), fun i => hread (.chain i), fun i => hread (.hash i), ?_, ?_, ?_⟩
  · intro i hi
    rw [← regValue_ks s i hi]
    exact hread (.ks i) (by simp) ((mapped_ks i).2 hi)
  · intro i hi
    rw [← regValue_iks s i hi]
    exact hread (.iks i) (by simp) ((mapped_iks i).2 hi)
  · intro i hi
    exact ⟨exec_ofRead_unmapped (.ks i) (by simp) (by rw [mapped_ks]; omega) s,
      exec_ofRead_unmapped (.iks i) (by simp) (by rw [mapped_iks]; omega) s⟩

/-- A read of `DOUT` that finds nothing captures the underflow and returns 0 (40_host_access R104). -/
theorem exec_rdDout_empty (s : State) (h : s.out = []) :
    exec .rdDout s = .next { Spec.captured s 7 0x8000001C with resp := .readData 0 } := by
  show execRdDout s = _
  rw [execRdDout, if_pos (by rw [h]; rfl), raise_eq_captured]
  rfl

/-- Settles O14: the word popped is the first word of `OUT`, whose bytes past the end are 0. -/
theorem doutReadPopsOrUnderflows : Obligations.DoutReadPopsOrUnderflows := by
  refine fun s => ⟨exec_rdDout_empty s, fun h => ⟨wordAt s.out 0, ?_, ?_⟩⟩
  · have hdrop : s.out.drop (min 4 s.out.length) = s.out.drop 4 := List.drop_eq_drop_iff.2 (by omega)
    rw [exec_rdDout_pops s h, hdrop]
  · exact ⟨byteOf_wordAt s.out 0 0 (by decide), byteOf_wordAt s.out 0 1 (by decide),
      byteOf_wordAt s.out 0 2 (by decide), byteOf_wordAt s.out 0 3 (by decide)⟩

end Sys2Proof.Machine
end

-- Proofs of 40_host_access: the writes
section
/-! The writes that store a value (40_host_access R102, R103, R106, R107), those that are ignored (R110), and the write
of `CMD` with a command's word (R108). -/

namespace Sys2Proof.Machine

/-- The registers whose writes are ignored (40_host_access R110); a write of any other does something (R101). -/
def readOnly : Reg → Bool
  | .id | .errInfo | .dout | .bufBytes | .outBytes | .totalLo | .totalHi | .cfg | .cap | .chain _ | .hash _ | .ks _
  | .iks _ => true
  | .ctrl | .status | .intEn | .cmd | .din | .key _ | .iv _ => false

theorem exec_ofWrite_readOnly (r : Reg) (hw : readOnly r = true) (v : Word) (s : State) :
    exec (.ofWrite v r) s = writeIgnored r s := by
  cases r <;> cases hw <;> rfl

theorem exec_ofWrite_readOnly_mapped (r : Reg) (hw : readOnly r = true) (hm : r.mapped = true) (v : Word)
    (s : State) : exec (.ofWrite v r) s = .next (s.respond .writeDone) := by
  rw [exec_ofWrite_readOnly r hw, writeIgnored, if_pos hm, writeTo]

theorem exec_ofWrite_readOnly_unmapped (r : Reg) (hw : readOnly r = true) (hm : ¬ r.mapped = true) (v : Word)
    (s : State) : exec (.ofWrite v r) s = .next (s.respond .busError) := by
  rw [exec_ofWrite_readOnly r hw, writeIgnored, if_neg hm, busError]

/-- Settles O20: a write of a read-only register is ignored where the register is mapped. -/
theorem readOnlyWritesAreIgnored : Obligations.ReadOnlyWritesAreIgnored := by
  intro v s
  have hwrite (r : Reg) (hw : readOnly r = true := by rfl) (hm : r.mapped = true := by rfl) :
      exec (.ofWrite v r) s = .next (s.respond .writeDone) :=
    exec_ofWrite_readOnly_mapped r hw hm v s
  refine ⟨hwrite .id, hwrite .errInfo, hwrite .dout, hwrite .bufBytes, hwrite .outBytes, hwrite .totalLo,
    hwrite .totalHi, hwrite .cfg, hwrite .cap, fun i => hwrite (.chain i), fun i => hwrite (.hash i), ?_, ?_⟩
  · intro i hi
    exact ⟨hwrite (.ks i) rfl ((mapped_ks i).2 hi), hwrite (.iks i) rfl ((mapped_iks i).2 hi)⟩
  · intro i hi
    exact ⟨exec_ofWrite_readOnly_unmapped (.ks i) rfl (by rw [mapped_ks]; omega) v s,
      exec_ofWrite_readOnly_unmapped (.iks i) rfl (by rw [mapped_iks]; omega) v s⟩

/-- Settles O18: each write is one field's update, the stored bits given by `ctrlMask` and `intEnMask`. -/
theorem ctrlIntEnAndDinWritesStore : Obligations.CtrlIntEnAndDinWritesStore :=
  fun _ _ => ⟨rfl, rfl, rfl⟩

/-! ### Marked arrays -/

/-- A written bit is set once its word is written, and stays as it was when another is (10_state R36, R37). -/
theorem getLsbD_markWritten {n : Nat} (mask : BitVec n) (i j : Fin n) :
    (markWritten mask i).getLsbD j = (mask.getLsbD j || decide (j = i)) := by
  simp [markWritten, Fin.ext_iff]

theorem markWritten_markWritten {n : Nat} (mask : BitVec n) (i : Nat) :
    markWritten (markWritten mask i) i = markWritten mask i := by
  simp [markWritten, BitVec.or_assoc]

/-- What a write does to an array of words and to its written bits (40_host_access R103): the word and the bit at its
index, and no other. -/
theorem set_and_markWritten {n : Nat} (a : Vector Word n) (mask : BitVec n) (i : Fin n) (v : Word) :
    (a.set i v)[i] = v ∧ (∀ j : Fin n, j ≠ i → (a.set i v)[j] = a[j]) ∧ (markWritten mask i).getLsbD i = true ∧
      ∀ j : Fin n, j ≠ i → (markWritten mask i).getLsbD j = mask.getLsbD j := by
  refine ⟨Vector.getElem_set_self _, fun j hj => ?_, ?_, fun j hj => ?_⟩
  · exact Vector.getElem_set_ne _ _ (Fin.val_ne_of_ne hj.symm)
  · rw [getLsbD_markWritten, decide_eq_true rfl, Bool.or_true]
  · rw [getLsbD_markWritten, decide_eq_false hj, Bool.or_false]

theorem State.setKey_respond_twice (s : State) (i : Fin 8) (v : Word) (r : BusResponse) :
    (((s.setKey i v).respond r).setKey i v).respond r = (s.setKey i v).respond r := by
  simp [State.setKey, State.respond, markWritten_markWritten]

theorem State.setIv_respond_twice (s : State) (i : Fin 4) (v : Word) (r : BusResponse) :
    (((s.setIv i v).respond r).setIv i v).respond r = (s.setIv i v).respond r := by
  simp [State.setIv, State.respond, markWritten_markWritten]

/-- Settles O19: `KEY` and `IV` are marked arrays, and storing a word and its bit again changes nothing. -/
theorem keyAndIvWritesStoreAndMark : Obligations.KeyAndIvWritesStoreAndMark := by
  refine ⟨fun i v s => ⟨(s.setKey i v).respond .writeDone, rfl, rfl, ?_⟩,
    fun i v s => ⟨(s.setIv i v).respond .writeDone, rfl, rfl, ?_⟩⟩
  · obtain ⟨hword, hwords, hbit, hbits⟩ := set_and_markWritten s.key s.keyWr i v
    exact ⟨hword, hwords, hbit, hbits, congrArg Host.Outcome.next (s.setKey_respond_twice i v .writeDone)⟩
  · obtain ⟨hword, hwords, hbit, hbits⟩ := set_and_markWritten s.iv s.ivWr i v
    exact ⟨hword, hwords, hbit, hbits, congrArg Host.Outcome.next (s.setIv_respond_twice i v .writeDone)⟩

/-! ### The write of `CMD` -/

/-- A command's write of `CMD` completes, refused or not (60_exceptions R300; assumption log 11). -/
theorem endCommand_completes (c : Word) (s : State) (r : Except ErrCode State) :
    ∃ t, endCommand c s r = .next t ∧ t.resp = .writeDone := by
  cases r with
  | ok u => exact ⟨_, endCommand_ok c s u, rfl⟩
  | error e => exact ⟨_, endCommand_error c s e, rfl⟩

/-- Settles O5: the word decodes to its command, whose row ends by completing the write. -/
theorem legalCommandWordsRunTheirRow : Obligations.LegalCommandWordsRunTheirRow := by
  intro k s
  have hrow : exec (.wrCmd k.word) s = exec k.toInstr s := execWrCmd_word k s
  refine ⟨word_mem_commandWords k, hrow, ?_⟩
  rw [hrow, exec_command]
  exact endCommand_completes _ _ _

end Sys2Proof.Machine
end

-- Proofs of 41_session: NOP, SRESET and their refused words
section
/-! The two commands that never fail (41_session R130, R134), and the words with their opcode that are no command's
(30_encoding R87). -/

namespace Sys2Proof.Machine

/-- A command whose core succeeds has that effect, and its write of `CMD` completes. -/
theorem exec_succeeds (k : Command) (s u : State) (h : commandCore k s = .ok u) :
    exec k.toInstr s = .next (u.respond .writeDone) := by
  rw [exec_command, h, endCommand_ok]

/-- `ARG` or `RSV` not 0 under an opcode other than APPEND's is a class of 30_encoding R87. -/
theorem illegalWord_of_arg_or_rsv (c : Word) (hopc : c.extractLsb' 0 8 ≠ 2)
    (h : c.extractLsb' 8 3 ≠ 0 ∨ c.extractLsb' 11 21 ≠ 0) : Spec.illegalWord c := by
  rcases h with harg | hrsv
  · exact .inr (.inr (.inr (.inr ⟨hopc, harg⟩)))
  · exact .inl hrsv

/-- Settles O25: both commands succeed in every state, and a word with their opcode and more is illegal. -/
theorem nopAndSresetDoTheirWhole : Obligations.NopAndSresetDoTheirWhole := by
  obtain ⟨-, hraise⟩ := illegalCommandWordsRaiseIllegalCmd
  refine ⟨fun s => exec_succeeds .nop s s rfl, fun s => exec_succeeds .sreset s s.toReset rfl, fun c s hopc h => ?_⟩
  refine hraise c s (illegalWord_of_arg_or_rsv c ?_ h)
  rcases hopc with h0 | hF
  · rw [h0]; decide
  · rw [hF]; decide

end Sys2Proof.Machine
end

-- Proofs of 41_session: config_ok and INIT
section
/-! `config_ok` of 41_session R132, algorithm by algorithm, and the INIT it decides (R131, R133). -/

namespace Sys2Proof.Machine

/-! ### The fields `config_ok` reads -/

/-- `ALG` in bits [1:0] (10_state R23). -/
def Alg.bits : Alg → BitVec 2
  | .aes => 0
  | .sha256 => 1
  | .md5 => 2
  | .pass => 3

theorem algOf_eq_iff (c : Word) (a : Alg) : algOf c = a ↔ c.extractLsb' 0 2 = a.bits := by
  unfold algOf
  generalize c.extractLsb' 0 2 = x
  revert x
  cases a <;> decide

/-- `NK` of a key size that can latch (10_state R24). -/
theorem keyWords_eq_nk (c : Word) (h : kszOf c ≠ 3) : keyWords c = Spec.nk c := by
  have hsizes : ∀ x : BitVec 2, x ≠ 3 → x = 0 ∨ x = 1 ∨ x = 2 := by decide
  unfold keyWords Spec.nk
  unfold kszOf at *
  generalize c.extractLsb' 8 2 = ksz at *
  rcases hsizes ksz h with rfl | rfl | rfl <;> rfl

/-- The low `nk` written bits are all ones when each of them is set (41_session R132). -/
theorem keysWritten_iff (keyWr : BitVec 8) (nk : Nat) :
    keysWritten keyWr nk = true ↔ ∀ i < nk, keyWr.getLsbD i = true := by
  rw [keysWritten, decide_eq_true_iff]
  refine ⟨fun h i hi => ?_, fun h => BitVec.eq_of_getLsbD_eq fun i hi => ?_⟩
  · have hbit := congrArg (BitVec.getLsbD · i) h
    simpa [hi] using hbit
  · simpa [hi] using h i hi

/-! ### `config_ok` by algorithm -/

/-- AES: a legal key size and block width, every key word written, and for CBC every IV word. -/
theorem configOk_aes_iff (keyWr : BitVec 8) (ivWr : BitVec 4) (c : Word) (h : algOf c = .aes) :
    configOk keyWr ivWr c = true ↔ kszOf c ≠ 3 ∧ (blkwOf c = 0 ∨ blkwOf c = 4) ∧
      (∀ i < Spec.nk c, keyWr.getLsbD i = true) ∧ (modeEcb c = true ∨ ivWr = 0xF) := by
  simp only [configOk, configLegal, operandsWritten, h, Bool.and_eq_true, Bool.or_eq_true, decide_eq_true_iff,
    keysWritten_iff, and_assoc]
  exact and_congr_right fun hk => by rw [keyWords_eq_nk c hk]

/-- A hash: the native block width, named or not. -/
theorem configOk_hash_iff (keyWr : BitVec 8) (ivWr : BitVec 4) (c : Word) (h : algOf c = .sha256 ∨ algOf c = .md5) :
    configOk keyWr ivWr c = true ↔ blkwOf c = 0 ∨ blkwOf c = 16 := by
  rcases h with h | h <;> simp [configOk, configLegal, operandsWritten, h]

/-- `PASS`: any block width up to 16. -/
theorem configOk_pass_iff (keyWr : BitVec 8) (ivWr : BitVec 4) (c : Word) (h : algOf c = .pass) :
    configOk keyWr ivWr c = true ↔ blkwOf c ≤ 16 := by
  simp [configOk, configLegal, operandsWritten, h]

/-- The model's check is R132's: of its four clauses the one of the selected algorithm speaks. -/
theorem configOk_iff (s : State) : configOk s.keyWr s.ivWr s.ctrl = true ↔ Spec.configOk s := by
  cases h : algOf s.ctrl <;> have hx := (algOf_eq_iff _ _).1 h
  case aes => simp [configOk_aes_iff _ _ _ h, Spec.configOk, hx, Alg.bits, kszOf, blkwOf, Spec.blkw, modeEcb]
  case sha256 => simp [configOk_hash_iff _ _ _ (.inl h), Spec.configOk, hx, Alg.bits, blkwOf, Spec.blkw]
  case md5 => simp [configOk_hash_iff _ _ _ (.inr h), Spec.configOk, hx, Alg.bits, blkwOf, Spec.blkw]
  case pass => simp [configOk_pass_iff _ _ _ h, Spec.configOk, hx, Alg.bits, blkwOf, Spec.blkw]

/-! ### INIT -/

/-- A successful `INIT` starts the session and loads what its algorithm needs (41_session R131). -/
theorem exec_init (s : State) (h : Spec.configOk s) :
    exec .init s = .next ((s.startSession.loadAlgorithm s.ctrl).respond .writeDone) :=
  exec_succeeds .init s _ ((initCmd_ok s _).2 ⟨(configOk_iff s).2 h, rfl⟩)

/-- Settles O26: the check is R132's, and what INIT loads lies outside the phase, `CFG` and the capture. -/
theorem initSucceedsExactlyWhenConfigOk : Obligations.InitSucceedsExactlyWhenConfigOk := by
  refine fun s => ⟨fun h => ⟨_, exec_init s h, ?_⟩, fun h => ?_⟩
  · simp
  · have hc : configOk s.keyWr s.ivWr s.ctrl = false := by
      rwa [← configOk_iff, Bool.not_eq_true] at h
    exact exec_refused .init s .config ((initCmd_error s _).2 ⟨hc, rfl⟩)

/-- Settles O27: `ALG` selects the one thing INIT loads besides starting the session. -/
theorem initLoadsHashAndPassSessions : Obligations.InitLoadsHashAndPassSessions := by
  refine fun s h => ⟨fun hx => ?_, fun hx => ?_, fun hx => ?_⟩
  · rw [exec_init s h, State.loadAlgorithm, (algOf_eq_iff _ .sha256).2 hx]; rfl
  · rw [exec_init s h, State.loadAlgorithm, (algOf_eq_iff _ .md5).2 hx]; rfl
  · rw [exec_init s h, State.loadAlgorithm, (algOf_eq_iff _ .pass).2 hx]; rfl

end Sys2Proof.Machine
end

-- Proofs of 42_stream: APPEND
section
/-! The four APPENDs at once: they differ in the number of bytes they take (42_stream R150). -/

namespace Sys2Proof.Machine

theorem commandCore_append {n : Nat} {k : Command} (hk : (n, k) ∈ appendRows) (s : State) :
    commandCore k s = appendCmd n s := by
  simp only [appendRows, List.mem_cons, List.not_mem_nil, or_false, Prod.mk.injEq] at hk
  rcases hk with ⟨rfl, rfl⟩ | ⟨rfl, rfl⟩ | ⟨rfl, rfl⟩ | ⟨rfl, rfl⟩ <;> rfl

/-- APPEND `n` in an `ACTIVE` session with room (42_stream R150). -/
theorem exec_append {n : Nat} {k : Command} (hk : (n, k) ∈ appendRows) (s : State) (ha : s.phase = .active)
    (hroom : s.buf.length + n ≤ 4 * s.params.bufWords) :
    exec k.toInstr s = .next { s with
      buf := s.buf ++ dinBytes s.din n, total := s.total + BitVec.ofNat 64 n, resp := .writeDone } :=
  exec_succeeds k s _ ((commandCore_append hk s).trans ((appendCmd_ok n s _).2 ⟨ha, hroom, rfl⟩))

/-- APPEND `n` in an `ACTIVE` session without room (42_stream R150). -/
theorem exec_append_overflow {n : Nat} {k : Command} (hk : (n, k) ∈ appendRows) (s : State) (ha : s.phase = .active)
    (hfull : 4 * s.params.bufWords < s.buf.length + n) : exec k.toInstr s = .next (Spec.refused s 4 k.word) :=
  exec_refused k s .bufOverflow ((commandCore_append hk s).trans ((appendCmd_error n s _).2 (.inr ⟨ha, hfull, rfl⟩)))

/-- Settles O30: each of the four rows is an APPEND's row and word, with or without room. -/
theorem appendTakesTheTopBytesOfDin : Obligations.AppendTakesTheTopBytesOfDin := by
  intro n i c s hi ha
  have hrow : ∃ k, (n, k) ∈ appendRows ∧ i = k.toInstr ∧ c = k.word := by
    simp only [List.mem_cons, List.not_mem_nil, or_false, Prod.mk.injEq] at hi
    rcases hi with ⟨rfl, rfl, rfl⟩ | ⟨rfl, rfl, rfl⟩ | ⟨rfl, rfl, rfl⟩ | ⟨rfl, rfl, rfl⟩
    exacts [⟨.append1, by decide, rfl, rfl⟩, ⟨.append2, by decide, rfl, rfl⟩, ⟨.append3, by decide, rfl, rfl⟩,
      ⟨.append4, by decide, rfl, rfl⟩]
  obtain ⟨k, hk, rfl, rfl⟩ := hrow
  exact ⟨exec_append hk s ha, exec_append_overflow hk s ha⟩

end Sys2Proof.Machine
end

-- Proofs of 42_stream: blocks ready, PROCESS and FLUSH
section
/-! What a process step takes and leaves (42_stream R151 to R153, R159): both commands are `State.consume` of the blocks
ready. -/

namespace Sys2Proof.Machine

/-- Settles O31: under flush the count is the length divided by the block size and rounded up. -/
theorem readyCountsBlocks : Obligations.ReadyCountsBlocks := by
  intro cfg len
  have hb := blockBytes_pos cfg
  have hleast : ∀ m, len ≤ m * blockBytes cfg → (len + blockBytes cfg - 1) / blockBytes cfg ≤ m := by
    intro m hm
    rw [← Nat.lt_succ_iff, Nat.div_lt_iff_lt_mul hb, Nat.succ_mul]
    omega
  exact ⟨rfl, le_ceil_mul len _ hb, hleast, (ready_false cfg len).1, rfl⟩

/-! ### What PROCESS leaves -/

/-- The blocks ready without flush (42_stream R151). -/
def State.readyBlocks (s : State) : Nat := s.buf.length / blockBytes s.cfg - minBuf s.cfg

/-- The run of the transform PROCESS does. -/
def State.processRun (s : State) : XResult := xform s.ctx s.readyBlocks s.buf s.xstate

/-- What PROCESS leaves when it is not refused. -/
def State.processed (s : State) : State := s.consume (ready s.cfg s.buf.length false)

theorem readyBlocks_le (s : State) : s.readyBlocks * blockBytes s.cfg ≤ s.buf.length :=
  (ready_false s.cfg s.buf.length).2 ▸ ready_false_le s.cfg s.buf.length

theorem processed_buf (s : State) : s.processed.buf = s.buf.drop (s.readyBlocks * blockBytes s.cfg) := by
  rw [State.processed, State.consume_buf, (ready_false _ _).2, State.readyBlocks]

theorem processed_run (s : State) :
    xform s.ctx (ready s.cfg s.buf.length false).nblk (s.buf.take (ready s.cfg s.buf.length false).nbytes) s.xstate =
      s.processRun := by
  rw [(ready_false _ _).1, (ready_false _ _).2]
  exact xform_take s.ctx s.readyBlocks s.buf s.xstate

theorem processed_eq (s : State) : s.processed = { s with
    buf := s.buf.drop (s.readyBlocks * blockBytes s.cfg)
    hash := s.processRun.xs.hash
    chain := s.processRun.xs.chain
    out := s.out ++ (if algOf s.cfg = .aes ∨ algOf s.cfg = .pass then s.processRun.bytes else []) } := by
  rw [State.processed, consume_eq s _ _ (processed_run s).symm, (ready_false _ _).2, State.readyBlocks]

theorem processed_xstate (s : State) : s.processed.xstate = s.processRun.xs := by
  rw [← processed_run]
  rfl

theorem processed_out (s : State) : s.processed.out = s.out ++ s.processRun.bytes := by
  rw [← processed_run]
  rfl

/-- A PROCESS that succeeds leaves what `processed` says, and one that is refused only the capture. -/
theorem exec_process_cases (s p : State) (h : exec .process s = .next p) :
    p = s.processed.respond .writeDone ∨ ∃ e, p = (s.raise e Command.process.word).respond .writeDone := by
  rcases endCommand_next _ _ _ _ h with ⟨u, hu, rfl⟩ | ⟨e, -, rfl⟩
  · obtain ⟨-, -, rfl⟩ := (processCmd_ok s u).1 hu
    exact .inl rfl
  · exact .inr ⟨e, rfl⟩

/-! ### The statements -/

/-- Settles O32: PROCESS checks the room and then runs the transform over the blocks ready. -/
theorem processTransformsReadyBlocks : Obligations.ProcessTransformsReadyBlocks := by
  intro s ha
  have hnbytes := (ready_false s.cfg s.buf.length).2
  rw [← hnbytes]
  refine ⟨fun hout hfull => ?_, fun hroom n r hn hr => ?_⟩
  · exact exec_refused .process s .outOverflow
      ((processCmd_error s _).2 (.inr ⟨ha, ⟨(outputs_iff _).2 hout, hfull⟩, rfl⟩))
  · rw [← outputs_iff] at hroom
    obtain rfl : n = s.readyBlocks := hn
    obtain rfl : r = s.processRun := hr.trans (xform_take s.ctx _ _ _)
    refine (exec_succeeds .process s s.processed ((processCmd_ok s _).2 ⟨ha, hroom, rfl⟩)).trans ?_
    rw [processed_eq]
    rfl

/-- Settles O36: PROCESS takes the whole blocks but `MINBUF`, or none when it is refused. -/
theorem processKeepsRetainedBlocks : Obligations.ProcessKeepsRetainedBlocks := by
  intro s t h
  rcases exec_process_cases s t h with rfl | ⟨e, rfl⟩
  · have hle := readyBlocks_le s
    refine ⟨s.readyBlocks, processed_buf s, hle, ?_⟩
    rw [Nat.mul_comm] at hle
    rw [State.respond_buf, processed_buf, List.length_drop, Nat.mul_comm, Nat.sub_mul_mod hle, Nat.sub_mul_div]
    unfold State.readyBlocks
    omega
  · exact ⟨0, by simp⟩

/-- Settles O33: FLUSH checks for a partial block, then the room, and then consumes the blocks that cover `BUF`. -/
theorem flushTransformsEverything : Obligations.FlushTransformsEverything := by
  intro s ha
  obtain ⟨hnblk, hnbytes⟩ := ready_true s.cfg s.buf.length
  have hwhole : algOf s.cfg = .pass ∨ s.buf.length % blockBytes s.cfg = 0 →
      ¬ (algOf s.cfg ≠ .pass ∧ s.buf.length % blockBytes s.cfg ≠ 0) := by tauto
  refine ⟨fun hp hpart => ?_, fun hw hout hfull => ?_, fun hw hroom r hr => ?_⟩
  · exact exec_refused .flush s .partialBlock ((flushCmd_error s _).2 (.inr ⟨ha, .inl ⟨⟨hp, hpart⟩, rfl⟩⟩))
  · exact exec_refused .flush s .outOverflow
      ((flushCmd_error s _).2 (.inr ⟨ha, .inr ⟨hwhole hw, ⟨(outputs_iff _).2 hout, hfull⟩, rfl⟩⟩))
  · rw [← outputs_iff] at hroom
    refine (exec_succeeds .flush s _ ((flushCmd_ok s _).2 ⟨ha, hwhole hw, hroom, rfl⟩)).trans ?_
    rw [consume_eq s _ r (by rw [hnblk, hnbytes, List.take_length, hr]), hnbytes, List.drop_length]
    rfl

end Sys2Proof.Machine
end

-- Proofs of 42_stream: the transform and PASS
section
/-! The transform block by block (42_stream R154 to R156), and the `PASS` session it leaves unchanged (R155, R157). -/

namespace Sys2Proof.Machine

/-- One block is the first `BB` bytes of `D` (42_stream R154). -/
theorem xform_one (c : Ctx) (d : List Byte) (x : XState) :
    xform c 1 d x = blockXform c x (d.take (blockBytes c.cfg)) := by
  simp [xform_succ, xform_zero]

/-- Settles O34: the runs compose, and one block is its algorithm's arm. -/
theorem xformRunsBlocksInOrder : Obligations.XformRunsBlocksInOrder := by
  refine ⟨fun c m n d x => by simp [xform_add], fun c d x => ⟨fun ha hw b hb => ?_, fun ha => ?_, fun ha => ?_,
    fun ha => ?_⟩, fun s => ⟨rfl, rfl⟩⟩
  · have hbb : blockBytes c.cfg = 16 := by rw [blockBytes, hw]
    rw [xform_one, hbb, blockXform, ha, hw, hb]
    exact ⟨rfl, rfl, rfl⟩
  · rw [xform_one, blockXform, ha]
    exact ⟨rfl, rfl, rfl⟩
  · rw [xform_one, blockXform, ha]
    exact ⟨rfl, rfl, rfl⟩
  · rw [xform_pass c 1 d x ha, Nat.one_mul]
    exact ⟨rfl, rfl⟩

/-- Settles O35: enough blocks take all of `D`. -/
theorem passMovesBytesUnchanged : Obligations.PassMovesBytesUnchanged :=
  ⟨fun c n d x hp hle => by rw [xform_pass c n d x hp, List.take_of_length_le hle], exec_flush_pass⟩

/-- Settles O38: FINALIZE of a `PASS` session is its FLUSH, and then `DONE`. -/
theorem finalizePassFlushesAndCloses : Obligations.FinalizePassFlushesAndCloses := by
  intro s ha hp
  have hf : finalizeCmd s = finalizePass s := by rw [finalizeCmd, hp]
  refine ⟨fun hroom => ?_, fun hfull => ?_⟩
  · exact exec_succeeds .finalize s _ (hf.trans ((finalizePass_ok s _).2 ⟨_, flushCmd_pass s ha hp hroom, rfl⟩))
  · refine exec_refused .finalize s .outOverflow (hf.trans ((finalizePass_error s _).2 ((flushCmd_error s _).2 ?_)))
    exact .inr ⟨ha, .inr ⟨fun h => h.1 hp, ⟨(outputs_iff _).2 (.inr hp), hfull⟩, rfl⟩⟩

end Sys2Proof.Machine
end

-- Proofs of 42_stream: FINALIZE as one run of the transform
section
/-! Every FINALIZE is one last run of the transform over `BUF` and a padding, and then what its algorithm makes of the
result: the cipher unpads, a hash puts its digest out (42_stream R157, 43_hash R181, 44_cipher R221, R222). -/

namespace Sys2Proof.Machine

/-! ### The padding -/

/-- What hash `FINALIZE` puts behind `len` buffered bytes (43_hash R181). -/
def hashTail (md5 : Bool) (len : Nat) (total : BitVec 64) : List Byte :=
  [0x80] ++ List.replicate ((55 - (len : Int)) % 64).toNat 0 ++ (if md5 then le64 (total * 8) else be64 (total * 8))

/-- What PKCS7 puts behind `len` buffered bytes (44_cipher R223). -/
def pkcs7Tail (len : Nat) : List Byte := List.replicate (16 - len % 16) (BitVec.ofNat 8 (16 - len % 16))

/-- What `FINALIZE` puts behind `len` buffered bytes. -/
def finalTail (cfg : Word) (len : Nat) (total : BitVec 64) : List Byte :=
  match algOf cfg with
  | .aes => if decrypting cfg = true ∨ noPadding cfg = true then [] else pkcs7Tail len
  | .sha256 => hashTail false len total
  | .md5 => hashTail true len total
  | .pass => []

/-- The algorithm of a hash session. -/
def hashAlg (md5 : Bool) : Alg := if md5 then .md5 else .sha256

theorem hashAlg_outputs (md5 : Bool) : (hashAlg md5).outputs = false := by cases md5 <;> rfl

theorem hashPad_eq (md5 : Bool) (buf : List Byte) (total : BitVec 64) :
    hashPad md5 buf total = buf ++ hashTail md5 buf.length total := by
  simp only [hashPad, hashTail, List.append_assoc]

theorem finalTail_hash (md5 : Bool) (cfg : Word) (len : Nat) (total : BitVec 64) (ha : algOf cfg = hashAlg md5) :
    finalTail cfg len total = hashTail md5 len total := by
  unfold finalTail
  cases md5 <;> rw [ha] <;> rfl

theorem finalTail_decrypt (cfg : Word) (len : Nat) (total : BitVec 64) (ha : algOf cfg = .aes)
    (hd : decrypting cfg = true) : finalTail cfg len total = [] := by
  simp [finalTail, ha, hd]

theorem finalTail_pass (cfg : Word) (len : Nat) (total : BitVec 64) (ha : algOf cfg = .pass) :
    finalTail cfg len total = [] := by
  simp [finalTail, ha]

/-- What an encrypt `FINALIZE` transforms is the buffered bytes and the padding. -/
theorem encryptInput_eq (s : State) (ha : algOf s.cfg = .aes) (hd : decrypting s.cfg = false) :
    encryptInput s = s.buf ++ finalTail s.cfg s.buf.length s.total := by
  cases hn : noPadding s.cfg <;> simp [encryptInput, finalTail, ha, hd, hn, pkcs7Pad, pkcs7Tail]

/-- The padding depends on the buffered bytes modulo the block size, so whole blocks may leave first. -/
theorem finalTail_sub (cfg : Word) (hl : configLegal cfg = true) (len n : Nat) (total : BitVec 64)
    (hn : n % blockBytes cfg = 0) (hle : n ≤ len) : finalTail cfg (len - n) total = finalTail cfg len total := by
  have hhash : n % 64 = 0 → ∀ md5, hashTail md5 (len - n) total = hashTail md5 len total := fun h64 md5 => by
    have hz : (55 - ((len - n : Nat) : Int)) % 64 = (55 - (len : Int)) % 64 := by omega
    rw [hashTail, hz, hashTail]
  unfold finalTail
  cases ha : algOf cfg
  case aes =>
    rw [blockBytes_aes cfg hl ha] at hn
    have hmod : (len - n) % 16 = len % 16 := by omega
    simp only [pkcs7Tail, hmod]
  case pass => rfl
  case sha256 | md5 =>
    rw [blockBytes_hash cfg hl (by rw [ha]; rfl)] at hn
    exact hhash hn _

/-! ### The last run -/

/-- The run of the transform `FINALIZE` ends a session with: over `BUF` and the padding. -/
def lastRun (c : Ctx) (buf : List Byte) (total : BitVec 64) (x : XState) : XResult :=
  xform c (ready c.cfg (buf ++ finalTail c.cfg buf.length total).length true).nblk
    (buf ++ finalTail c.cfg buf.length total) x

/-- The digest of a hash session and its bytes (43_hash R181, R182). -/
def digested (md5 : Bool) (x : XState) : XResult :=
  let h := if md5 then md5SwapDigest x.hash else x.hash
  { xs := { x with hash := h }, bytes := digestBytes md5 h }

/-- The sessions whose `FINALIZE` unpads (44_cipher R222). -/
def Unpads (cfg : Word) : Prop := algOf cfg = .aes ∧ decrypting cfg = true ∧ noPadding cfg = false

/-- What `FINALIZE` makes of the last run. -/
def finalResult (cfg : Word) (r : XResult) : XResult :=
  match algOf cfg with
  | .aes => { r with bytes := if decrypting cfg = true ∧ noPadding cfg = false then pkcs7Unpad r.bytes else r.bytes }
  | .sha256 => digested false r.xs
  | .md5 => digested true r.xs
  | .pass => r

/-- The hash words, the chain and the bytes of `OUT`. -/
def State.result (s : State) : XResult := { xs := s.xstate, bytes := s.out }

/-- The result with bytes put out before it. -/
def XResult.after (r : XResult) (pre : List Byte) : XResult := { r with bytes := pre ++ r.bytes }

/-- What `FINALIZE` leaves once the bytes `l` have joined `BUF`. -/
def State.closedAfter (s : State) (l : List Byte) : XResult :=
  (finalResult s.cfg (lastRun s.ctx (s.buf ++ l) (s.total + BitVec.ofNat 64 l.length) s.xstate)).after s.out

theorem closedAfter_nil (s : State) :
    s.closedAfter [] = (finalResult s.cfg (lastRun s.ctx s.buf s.total s.xstate)).after s.out := by
  simp [State.closedAfter]

/-- Whole blocks are covered by their number. -/
theorem ready_true_nblk (cfg : Word) (len : Nat) (h : len % blockBytes cfg = 0) :
    (ready cfg len true).nblk = len / blockBytes cfg := by
  have hb := blockBytes_pos cfg
  rw [(ready_true cfg len).1]
  exact (Nat.div_eq_of_eq_mul_left hb (ceil_mul_of_dvd len _ hb h).symm).symm

/-- The loop of hash `FINALIZE` is the session's transform (43_hash R181). -/
theorem xform_hash (md5 : Bool) (c : Ctx) (n : Nat) (d : List Byte) (x : XState) (hl : configLegal c.cfg = true)
    (ha : algOf c.cfg = hashAlg md5) :
    xform c n d x = { xs := { x with hash := hashBlocks md5 n d x.hash }, bytes := [] } := by
  have hbb : blockBytes c.cfg = 64 := blockBytes_hash c.cfg hl (by rw [ha, hashAlg_outputs])
  have hbw : blockWords c.cfg = 16 := by
    unfold blockBytes at hbb
    omega
  have hone : ∀ x e, blockXform c x e =
      { xs := { x with hash := hashCompress md5 x.hash (wordsAt e 16) }, bytes := [] } := by
    intro x e
    rw [blockXform, ha, hbw]
    cases md5 <;> rfl
  induction n generalizing d x with
  | zero => rfl
  | succ n ih => rw [xform_succ, hone, ih, hbb]; rfl

theorem finalizeHash_result (md5 : Bool) (s u : State) (hl : configLegal s.cfg = true)
    (ha : algOf s.cfg = hashAlg md5) (h : finalizeHash md5 s = .ok u) : u.result = s.closedAfter [] := by
  obtain ⟨-, -, rfl⟩ := (finalizeHash_ok md5 s u).1 h
  have hbb : blockBytes s.cfg = 64 := blockBytes_hash s.cfg hl (by rw [ha, hashAlg_outputs])
  have hwhole : (s.buf ++ hashTail md5 s.buf.length s.total).length % blockBytes s.cfg = 0 := by
    rw [hbb]
    cases md5 <;> simp [hashTail, le64, be64, wordBytes] <;> omega
  have hfinal : ∀ r, finalResult s.cfg r = digested md5 r.xs := by
    intro r
    unfold finalResult
    cases md5 <;> rw [ha] <;> rfl
  rw [closedAfter_nil, hfinal, lastRun, State.ctx_cfg, finalTail_hash md5 _ _ _ ha, ready_true_nblk _ _ hwhole, hbb,
    xform_hash md5 s.ctx _ _ _ hl ha, ← hashPad_eq]
  rfl

/-- A cipher `FINALIZE` over whole blocks. -/
theorem finishCipher_result (s : State) (post : List Byte → List Byte) (hl : configLegal s.cfg = true)
    (ha : algOf s.cfg = .aes) (d : List Byte) (hd : d = s.buf ++ finalTail s.cfg s.buf.length s.total)
    (hwhole : d.length % 16 = 0)
    (hpost : ∀ l, post l = if decrypting s.cfg = true ∧ noPadding s.cfg = false then pkcs7Unpad l else l) :
    (s.finishCipher d post).result = s.closedAfter [] := by
  have hbb := blockBytes_aes s.cfg hl ha
  rw [closedAfter_nil, lastRun, State.ctx_cfg, ← hd, ready_true_nblk _ _ (by rw [hbb, hwhole]), hbb, finalResult, ha]
  simp only [← hpost]
  rfl

theorem encryptInput_whole (s : State) (h : ¬ (noPadding s.cfg = true ∧ s.buf.length % 16 ≠ 0)) :
    (encryptInput s).length % 16 = 0 := by
  cases hn : noPadding s.cfg <;> simp [encryptInput, hn, pkcs7Pad] at h ⊢ <;> omega

/-- `FINALIZE` of any session: the last run, and what the algorithm makes of it. -/
theorem finalizeCmd_result (s u : State) (hl : configLegal s.cfg = true) (h : finalizeCmd s = .ok u) :
    u.result = s.closedAfter [] := by
  rcases finalizeCmd_cases s with ⟨ha, hd, hf⟩ | ⟨ha, hd, hf⟩ | ⟨ha, hf⟩ | ⟨ha, hf⟩ | ⟨ha, hf⟩ <;> rw [hf] at h
  · obtain ⟨-, hwhole, -, rfl⟩ := (finalizeDecrypt_ok s u).1 h
    refine finishCipher_result s _ hl ha _ (by rw [finalTail_decrypt _ _ _ ha hd, List.append_nil]) hwhole fun l => ?_
    cases hn : noPadding s.cfg <;> simp [hd]
  · obtain ⟨-, hpart, -, rfl⟩ := (finalizeEncrypt_ok s u).1 h
    exact finishCipher_result s _ hl ha _ (encryptInput_eq s ha hd) (encryptInput_whole s hpart) fun l => by simp [hd]
  · exact finalizeHash_result false s u hl ha h
  · exact finalizeHash_result true s u hl ha h
  · obtain ⟨v, hv, rfl⟩ := (finalizePass_ok s u).1 h
    obtain ⟨-, -, -, rfl⟩ := (flushCmd_ok s v).1 hv
    obtain ⟨-, hnbytes⟩ := ready_true s.cfg s.buf.length
    rw [closedAfter_nil, lastRun, State.ctx_cfg, finalTail_pass _ _ _ ha, List.append_nil, finalResult, ha]
    simp only [State.result, State.xstate, XResult.after, State.setPhase, State.consume_out, State.consume_hash,
      State.consume_chain, hnbytes, List.take_length]

end Sys2Proof.Machine
end

-- Proofs of 42_stream: PROCESS before FINALIZE
section
/-! A PROCESS only does the first blocks of the last run early (42_stream R154, R160): the blocks compose, and the
padding does not see that whole blocks have left. -/

namespace Sys2Proof.Machine

@[simp] theorem XResult.after_bytes (r : XResult) (pre : List Byte) : (r.after pre).bytes = pre ++ r.bytes := rfl

theorem XResult.after_after (r : XResult) (a b : List Byte) : (r.after a).after b = r.after (b ++ a) := by
  simp [XResult.after]

/-- The blocks that cover a length are some whole ones and those that cover the rest. -/
theorem ready_true_split (cfg : Word) (len k : Nat) (h : k * blockBytes cfg ≤ len) :
    (ready cfg len true).nblk = k + (ready cfg (len - k * blockBytes cfg) true).nblk := by
  have hb := blockBytes_pos cfg
  have hsum : len + blockBytes cfg - 1 = len - k * blockBytes cfg + blockBytes cfg - 1 + k * blockBytes cfg := by omega
  rw [(ready_true cfg len).1, (ready_true cfg _).1, hsum, Nat.add_mul_div_right _ _ hb, Nat.add_comm]

/-- The last run is `k` of its blocks and then the last run over what they leave. -/
theorem lastRun_split (c : Ctx) (buf : List Byte) (total : BitVec 64) (x : XState) (k : Nat)
    (hl : configLegal c.cfg = true) (hk : k * blockBytes c.cfg ≤ buf.length) :
    lastRun c buf total x =
      (lastRun c (buf.drop (k * blockBytes c.cfg)) total (xform c k buf x).xs).after (xform c k buf x).bytes := by
  have htail := finalTail_sub c.cfg hl buf.length (k * blockBytes c.cfg) total (Nat.mul_mod_left _ _) hk
  have hfirst : xform c k (buf ++ finalTail c.cfg buf.length total) x = xform c k buf x := by
    rw [← xform_take, List.take_append_of_le_length hk, xform_take]
  have hlen : k * blockBytes c.cfg ≤ (buf ++ finalTail c.cfg buf.length total).length := by
    rw [List.length_append]
    omega
  rw [lastRun, ready_true_split c.cfg _ k hlen, xform_add, hfirst, lastRun, List.length_drop, htail,
    ← List.drop_append_of_le_length hk, List.length_drop]
  rfl

/-- Unpadding the bytes `l` does not reach the bytes put out before them. -/
def UnpadKeeps (pre l : List Byte) : Prop := pkcs7Unpad (pre ++ l) = pre ++ pkcs7Unpad l

theorem UnpadKeeps.eq {pre l : List Byte} (h : UnpadKeeps pre l) : pkcs7Unpad (pre ++ l) = pre ++ pkcs7Unpad l := h

/-- Bytes put out before the last run stay in front of its result, when unpadding does not reach them. -/
theorem finalResult_after (cfg : Word) (r : XResult) (pre : List Byte) (hhash : (algOf cfg).outputs = false → pre = [])
    (hunpad : Unpads cfg → UnpadKeeps pre r.bytes) :
    finalResult cfg (r.after pre) = (finalResult cfg r).after pre := by
  unfold finalResult
  cases ha : algOf cfg
  case aes =>
    by_cases hu : decrypting cfg = true ∧ noPadding cfg = false
    · simp only [if_pos hu, XResult.after, UnpadKeeps.eq (hunpad ⟨ha, hu⟩)]
    · simp only [if_neg hu, XResult.after]
  case pass => rfl
  case sha256 | md5 =>
    rw [hhash (by rw [ha]; rfl)]
    rfl

/-! ### The last run after a PROCESS -/

/-- The last run after a PROCESS, once the bytes `l` have joined `BUF`. -/
def State.restRun (s : State) (l : List Byte) : XResult :=
  lastRun s.ctx (s.processed.buf ++ l) (s.total + BitVec.ofNat 64 l.length) s.processRun.xs

/-- The last run is the one of a PROCESS and then the rest. -/
theorem lastRun_eq_restRun (s : State) (l : List Byte) (hl : configLegal s.cfg = true) :
    lastRun s.ctx (s.buf ++ l) (s.total + BitVec.ofNat 64 l.length) s.xstate =
      (s.restRun l).after s.processRun.bytes := by
  have hle := readyBlocks_le s
  have hfirst : xform s.ctx s.readyBlocks (s.buf ++ l) s.xstate = s.processRun := by
    rw [← xform_take, State.ctx_cfg, List.take_append_of_le_length hle]
    exact xform_take s.ctx s.readyBlocks s.buf s.xstate
  rw [lastRun_split s.ctx _ _ _ s.readyBlocks hl (hle.trans (by simp)), hfirst, State.ctx_cfg,
    List.drop_append_of_le_length hle, ← processed_buf, State.restRun]

/-- 42_stream R160: the first blocks of the last run may be done early, where unpadding does not reach them. -/
theorem closedAfter_processed (s : State) (l : List Byte) (hl : configLegal s.cfg = true)
    (hunpad : Unpads s.cfg → UnpadKeeps s.processRun.bytes (s.restRun l).bytes) :
    s.processed.closedAfter l = s.closedAfter l := by
  have hhash : (algOf s.cfg).outputs = false → s.processRun.bytes = [] := xform_hash_bytes s.ctx _ _ _
  rw [State.closedAfter.eq_def s, lastRun_eq_restRun s l hl, finalResult_after _ _ _ hhash hunpad,
    XResult.after_after, ← processed_out, State.restRun, ← processed_xstate]
  rfl

/-! ### The decrypting PKCS7 session -/

/-- Unpadding that removes no more than the last bytes leaves those before them. -/
theorem unpadKeeps_of_getLast (pre l : List Byte) (hne : l ≠ [])
    (hlast : ∀ b, l.getLast? = some b → b.toNat ≤ l.length) : UnpadKeeps pre l := by
  have hb := hlast _ (List.getLast?_eq_some_getLast hne)
  rw [UnpadKeeps, pkcs7Unpad, pkcs7Unpad, List.getLast?_append_of_ne_nil pre hne, List.getLast?_eq_some_getLast hne]
  simp only [List.length_append]
  rw [Nat.min_eq_left hb, Nat.min_eq_left (hb.trans (Nat.le_add_left _ _)), Nat.add_sub_assoc hb,
    List.take_length_add_append]

/-- PROCESS keeps the last block of a decrypting session, so a last byte of at most 16 reaches no earlier one
(44_cipher R224, R229). -/
theorem unpadKeeps_restRun (s : State) (hl : configLegal s.cfg = true) (hu : Unpads s.cfg)
    (hwhole : s.buf.length % 16 = 0)
    (hlast : ∀ b, (xform s.ctx (s.buf.length / 16) s.buf s.xstate).bytes.getLast? = some b → b.toNat ≤ 16) :
    UnpadKeeps s.processRun.bytes (s.restRun []).bytes := by
  obtain ⟨ha, hd, -⟩ := hu
  have hbb := blockBytes_aes s.cfg hl ha
  have hmin : minBuf s.cfg = 1 := if_pos ⟨ha, hd⟩
  have hk : s.readyBlocks = s.buf.length / 16 - 1 := by rw [State.readyBlocks, hbb, hmin]
  rcases Nat.eq_zero_or_pos s.buf.length with h0 | hpos
  · have hnone : s.processRun.bytes = [] := by
      rw [State.processRun, hk, h0]
      rfl
    rw [hnone, UnpadKeeps, List.nil_append, List.nil_append]
  · have hrest : s.processed.buf.length = 16 := by
      rw [processed_buf, List.length_drop, hbb, hk]
      omega
    have hlen : (s.restRun []).bytes.length = 16 := by
      rw [State.restRun, lastRun, xform_aes_length s.ctx _ _ _ ha, State.ctx_cfg, finalTail_decrypt _ _ _ ha hd,
        List.append_nil, List.append_nil, ready_true_nblk _ _ (by rw [hrest, hbb]), hrest, hbb]
    have hne : (s.restRun []).bytes ≠ [] := List.ne_nil_of_length_pos (by omega)
    have hall : xform s.ctx (s.buf.length / 16) s.buf s.xstate = (s.restRun []).after s.processRun.bytes := by
      rw [← lastRun_eq_restRun s [] hl, lastRun, State.ctx_cfg, finalTail_decrypt _ _ _ ha hd, List.append_nil,
        List.append_nil, ready_true_nblk _ _ (by rw [hbb, hwhole]), hbb]
    rw [hall, XResult.after_bytes, List.getLast?_append_of_ne_nil _ hne] at hlast
    exact unpadKeeps_of_getLast _ _ hne (hlen ▸ hlast)

/-! ### The two ways to FINALIZE -/

theorem result_eq_iff (s t : State) : s.result = t.result ↔ s.out = t.out ∧ s.hash = t.hash ∧ s.chain = t.chain := by
  simp only [State.result, State.xstate, XResult.mk.injEq, XState.mk.injEq]
  tauto

/-- The capture is no part of what FINALIZE leaves. -/
theorem closedAfter_raise (s : State) (e : ErrCode) (v : Word) (l : List Byte) :
    (s.raise e v).closedAfter l = s.closedAfter l := by
  simp [State.closedAfter, State.ctx, State.xstate]

/-- A FINALIZE that succeeds closes the session, and one that is refused leaves only the capture. -/
theorem exec_finalize_cases (s t : State) (h : exec .finalize s = .next t) :
    (∃ u, finalizeCmd s = .ok u ∧ t = u.respond .writeDone) ∨
      ∃ e, t = (s.raise e Command.finalize.word).respond .writeDone := by
  rcases endCommand_next _ _ _ _ h with ⟨u, hu, rfl⟩ | ⟨e, -, rfl⟩
  · exact .inl ⟨u, hu, rfl⟩
  · exact .inr ⟨e, rfl⟩

/-- A FINALIZE that moves the phase succeeds. -/
theorem exec_finalize_done (s t : State) (h : exec .finalize s = .next t) (ha : s.phase = .active)
    (hd : t.phase = .done) : ∃ u, finalizeCmd s = .ok u ∧ t = u.respond .writeDone := by
  rcases exec_finalize_cases s t h with hok | ⟨e, rfl⟩
  · exact hok
  · rw [State.respond_phase, State.raise_phase, ha] at hd
    exact absurd hd (by decide)

/-- Settles O50: whether PROCESS ran or was refused, FINALIZE leaves the same from what it left. -/
theorem processBeforeFinalizeChangesNothing : Obligations.ProcessBeforeFinalizeChangesNothing := by
  intro s p t u hinv hp _ _ hpt htdone ha hsu hudone hlast
  have hl := hinv.cfg_legal
  obtain ⟨u, hu, rfl⟩ := exec_finalize_done s u hsu ha hudone
  have hunpad : Unpads s.cfg → UnpadKeeps s.processRun.bytes (s.restRun []).bytes := fun hun => by
    have ⟨halg, hd, hn⟩ := hun
    have hdec : finalizeDecrypt s = .ok u := by simpa only [finalizeCmd, halg, hd, if_true] using hu
    obtain ⟨-, hwhole, -⟩ := (finalizeDecrypt_ok s u).1 hdec
    exact unpadKeeps_restRun s hl hun hwhole (hlast halg hd hn)
  have hsame : p.phase = .active ∧ p.cfg = s.cfg ∧ p.closedAfter [] = s.closedAfter [] := by
    rcases exec_process_cases s p hp with rfl | ⟨e, rfl⟩
    · exact ⟨ha, rfl, closedAfter_processed s [] hl hunpad⟩
    · exact ⟨by simp [ha], by simp, closedAfter_raise s e _ []⟩
  obtain ⟨hpa, hpcfg, hpclosed⟩ := hsame
  obtain ⟨t, ht, rfl⟩ := exec_finalize_done p t hpt hpa htdone
  have hresult : t.result = u.result := by
    rw [finalizeCmd_result p t (hpcfg ▸ hl) ht, hpclosed, finalizeCmd_result s u hl hu]
  obtain ⟨hout, hhash, hchain⟩ := (result_eq_iff t u).1 hresult
  exact ⟨hout, hhash, hchain, (finalizeCmd_closes p t ht).buf.trans (finalizeCmd_closes s u hu).buf.symm⟩

end Sys2Proof.Machine
end

-- Proofs of 42_stream: streaming equivalence
section
/-! A feeding script leaves what FINALIZE will make of the bytes it appended, wherever its PROCESSes stand (42_stream
R160): each instruction that raises no error moves its bytes from the script into the session. -/

namespace Sys2Proof.Machine

/-- The three shapes of an instruction of a feeding script. -/
theorem feeding_cases {i : Instr} (h : Spec.feeding i = true) :
    (∃ v, i = .wrDin v) ∨ (∃ n k, (n, k) ∈ appendRows ∧ i = k.toInstr) ∨ i = .process := by
  cases i
  case wrDin v => exact .inl ⟨v, rfl⟩
  case append1 => exact .inr (.inl ⟨1, .append1, by decide, rfl⟩)
  case append2 => exact .inr (.inl ⟨2, .append2, by decide, rfl⟩)
  case append3 => exact .inr (.inl ⟨3, .append3, by decide, rfl⟩)
  case append4 => exact .inr (.inl ⟨4, .append4, by decide, rfl⟩)
  case process => exact .inr (.inr rfl)
  all_goals exact absurd h Bool.false_ne_true

/-- An APPEND in a script adds its bytes of `DIN`. -/
theorem appendedBytes_append {n : Nat} {k : Command} (hk : (n, k) ∈ appendRows) (din : Word) (l : List Instr) :
    Spec.appendedBytes din (k.toInstr :: l) = dinBytes din n ++ Spec.appendedBytes din l := by
  simp only [appendRows, List.mem_cons, List.not_mem_nil, or_false, Prod.mk.injEq] at hk
  rcases hk with ⟨rfl, rfl⟩ | ⟨rfl, rfl⟩ | ⟨rfl, rfl⟩ | ⟨rfl, rfl⟩ <;> rfl

/-- Bytes that have joined `BUF` are bytes FINALIZE will find there. -/
theorem closedAfter_appended (s : State) (n : Nat) (hn : n ≤ 4) (l : List Byte) (r : BusResponse) :
    State.closedAfter { s with
      buf := s.buf ++ dinBytes s.din n, total := s.total + BitVec.ofNat 64 n, resp := r } l =
      s.closedAfter (dinBytes s.din n ++ l) := by
  have hlen : (dinBytes s.din n ++ l).length = n + l.length := by simp [dinBytes, wordBytes, hn]
  simp only [State.closedAfter, hlen, BitVec.ofNat_add, ← List.append_assoc, ← BitVec.add_assoc]
  rfl

/-- What an instruction of a feeding script does: it keeps the session's configuration, and when it leaves no error
there was none, and its bytes have joined those FINALIZE will find. -/
structure Feeds (s t : State) (i : Instr) (l : List Instr) : Prop where
  cfg : t.cfg = s.cfg
  clean : t.err = false → s.err = false
  closed : t.err = false →
    t.closedAfter (Spec.appendedBytes t.din l) = s.closedAfter (Spec.appendedBytes s.din (i :: l))

/-- A refused command leaves an error. -/
theorem Feeds.of_raise (s : State) (e : ErrCode) (c : Word) (i : Instr) (l : List Instr) :
    Feeds s ((s.raise e c).respond .writeDone) i l where
  cfg := by simp
  clean := fun herr => by simp at herr
  closed := fun herr => by simp at herr

theorem exec_feeds (s t : State) (i : Instr) (l : List Instr) (hl : configLegal s.cfg = true) (hu : ¬ Unpads s.cfg)
    (hi : Spec.feeding i = true) (h : exec i s = .next t) : Feeds s t i l := by
  rcases feeding_cases hi with ⟨v, rfl⟩ | ⟨n, k, hk, rfl⟩ | rfl
  · rw [show t = _ from (writeTo_next _ t).1 h]
    exact ⟨rfl, id, fun _ => rfl⟩
  · rw [exec_command, commandCore_append hk] at h
    rcases endCommand_next _ _ _ _ h with ⟨u, hok, rfl⟩ | ⟨e, -, rfl⟩
    · obtain ⟨-, -, rfl⟩ := (appendCmd_ok n s u).1 hok
      refine ⟨rfl, id, fun _ => ?_⟩
      rw [appendedBytes_append hk]
      exact closedAfter_appended s n (le_four_of_mem_appendRows hk) _ _
    · exact .of_raise s e _ _ l
  · rcases exec_process_cases s t h with rfl | ⟨e, rfl⟩
    · exact ⟨rfl, id, fun _ => closedAfter_processed s _ hl fun hun => absurd hun hu⟩
    · exact .of_raise s e _ _ l

theorem runInstrs_cons_eq_some {i : Instr} {l : List Instr} {s t : State} (h : Spec.runInstrs (i :: l) s = some t) :
    ∃ r, exec i s = .next r ∧ Spec.runInstrs l r = some t := by
  unfold Spec.runInstrs at h
  split at h
  case h_1 r hr => exact ⟨r, hr, h⟩
  case h_2 => cases h
  case h_3 => cases h

/-- A feeding script and FINALIZE, without an error, leave what FINALIZE makes of the bytes appended. -/
theorem runInstrs_feeding_finalize (l : List Instr) (s t : State) (hl : configLegal s.cfg = true)
    (hu : ¬ Unpads s.cfg) (hf : ∀ i ∈ l, Spec.feeding i = true)
    (h : Spec.runInstrs (l ++ [.finalize]) s = some t) (herr : t.err = false) :
    s.err = false ∧ t.result = s.closedAfter (Spec.appendedBytes s.din l) := by
  induction l generalizing s with
  | nil =>
    obtain ⟨r, hr, hrt⟩ := runInstrs_cons_eq_some h
    obtain rfl : r = t := Option.some.inj hrt
    rcases exec_finalize_cases s r hr with ⟨u, hok, rfl⟩ | ⟨e, rfl⟩
    · obtain ⟨hframe, -⟩ := finalizeCmd_frame s u hok
      exact ⟨hframe.err ▸ herr, finalizeCmd_result s u hl hok⟩
    · simp at herr
  | cons i l ih =>
    obtain ⟨r, hr, hrt⟩ := runInstrs_cons_eq_some h
    have hstep := exec_feeds s r i l hl hu (hf i List.mem_cons_self) hr
    obtain ⟨hrerr, hresult⟩ :=
      ih r (hstep.cfg ▸ hl) (hstep.cfg ▸ hu) (fun j hj => hf j (List.mem_cons_of_mem i hj)) hrt
    exact ⟨hstep.clean hrerr, hresult.trans (hstep.closed hrerr)⟩

/-- Settles O51: both scripts leave what FINALIZE makes of the same bytes. -/
theorem streamingEquivalence : Obligations.StreamingEquivalence := by
  intro s t u a b hinv _ _ hu ha hb hbytes ht hterr hurun huerr
  have hl := hinv.cfg_legal
  obtain ⟨-, hta⟩ := runInstrs_feeding_finalize a s t hl hu ha ht hterr
  obtain ⟨-, hub⟩ := runInstrs_feeding_finalize b s u hl hu hb hurun huerr
  exact (result_eq_iff t u).1 (by rw [hta, hub, hbytes])

end Sys2Proof.Machine
end

-- Proofs of 43_hash: the padded message
section
/-! The padded message of a hash session (43_hash R181, R183): its length field byte by byte, and its whole blocks. -/

namespace Sys2Proof.Machine

/-- The fewest zero bytes that leave 8 bytes of a block after `len` bytes and the marker (43_hash R181). -/
def zeroFill (len : Nat) : Nat := ((55 - (len : Int)) % 64).toNat

theorem zeroFill_lt (len : Nat) : zeroFill len < 64 := by
  unfold zeroFill
  omega

theorem zeroFill_whole (len : Nat) : (len + 1 + zeroFill len + 8) % 64 = 0 := by
  unfold zeroFill
  omega

/-- The length field of the padded message: `L` in 8 bytes, in its algorithm's byte order (43_hash R183). -/
def lengthField (md5 : Bool) (l : BitVec 64) : List Byte := if md5 then le64 l else be64 l

theorem length_be64 (l : BitVec 64) : (be64 l).length = 8 := rfl

theorem length_lengthField (md5 : Bool) (l : BitVec 64) : (lengthField md5 l).length = 8 := by
  cases md5
  · exact length_be64 l
  · exact List.length_reverse.trans (length_be64 l)

/-- Byte `k` of the word at bit `i` of a longer vector. -/
theorem byteOf_extractLsb' {n : Nat} (l : BitVec n) (i k : Nat) :
    byteOf (l.extractLsb' i 32) k = l.extractLsb' (i + 8 * (3 - k)) 8 := by
  ext b hb
  have hin : 8 * (3 - k) + b < 32 := by omega
  simp [byteOf, hin, Nat.add_assoc]

/-- Byte 0 of `be64` is the most significant. -/
theorem getD_be64 (l : BitVec 64) (j : Nat) (hj : j < 8) : (be64 l).getD j 0 = l.extractLsb' (56 - 8 * j) 8 := by
  match j, hj with
  | 0, _ => exact byteOf_extractLsb' l 32 0
  | 1, _ => exact byteOf_extractLsb' l 32 1
  | 2, _ => exact byteOf_extractLsb' l 32 2
  | 3, _ => exact byteOf_extractLsb' l 32 3
  | 4, _ => exact byteOf_extractLsb' l 0 0
  | 5, _ => exact byteOf_extractLsb' l 0 1
  | 6, _ => exact byteOf_extractLsb' l 0 2
  | 7, _ => exact byteOf_extractLsb' l 0 3

/-- Byte 0 of `le64` is the least significant. -/
theorem getD_le64 (l : BitVec 64) (j : Nat) (hj : j < 8) : (le64 l).getD j 0 = l.extractLsb' (8 * j) 8 := by
  rw [le64, List.getD_reverse j (length_be64 l ▸ hj), length_be64, getD_be64 l _ (by omega)]
  congr 1
  omega

theorem getD_lengthField (md5 : Bool) (l : BitVec 64) (j : Nat) (hj : j < 8) :
    (lengthField md5 l).getD j 0 = l.extractLsb' (if md5 then 8 * j else 56 - 8 * j) 8 := by
  cases md5
  · exact getD_be64 l j hj
  · exact getD_le64 l j hj

theorem hashPad_eq_lengthField (md5 : Bool) (buf : List Byte) (total : BitVec 64) : hashPad md5 buf total =
    buf ++ [0x80] ++ List.replicate (zeroFill buf.length) 0 ++ lengthField md5 (total * 8) := rfl

theorem length_hashPad (md5 : Bool) (buf : List Byte) (total : BitVec 64) :
    (hashPad md5 buf total).length = buf.length + 1 + zeroFill buf.length + 8 := by
  simp only [hashPad_eq_lengthField, List.length_append, List.length_singleton, List.length_replicate,
    length_lengthField]

/-- Settles O39: the zero fill takes the marker and the length field to the end of a block. -/
theorem hashPaddingEndsTheBlock : Obligations.HashPaddingEndsTheBlock := fun md5 buf total =>
  ⟨zeroFill buf.length, lengthField md5 (total * 8), hashPad_eq_lengthField md5 buf total, zeroFill_lt _,
    (length_hashPad md5 buf total).symm ▸ zeroFill_whole buf.length, length_lengthField md5 _,
    getD_lengthField md5 _⟩

end Sys2Proof.Machine
end

-- Proofs of 43_hash: FINALIZE of a hash session
section
/-! FINALIZE of a hash session (43_hash R180 to R182): both algorithms go the same way but for the digest, whose words
MD5 leaves with their bytes reversed. -/

namespace Sys2Proof.Machine

theorem finalizeCmd_hash (md5 : Bool) (s : State) (h : algOf s.cfg = hashAlg md5) :
    finalizeCmd s = finalizeHash md5 s := by
  cases md5 <;> rw [finalizeCmd, h] <;> rfl

/-- FINALIZE of an `ACTIVE` hash session with room for the digest (43_hash R181). -/
theorem exec_finalize_hash (md5 : Bool) (s : State) (ha : s.phase = .active) (halg : algOf s.cfg = hashAlg md5)
    (hroom : s.out.length + digestLen md5 ≤ 4 * s.params.outWords) :
    exec .finalize s = .next { s with
      buf := [], hash := hashFinal md5 s, phase := .done, resp := .writeDone,
      out := s.out ++ digestBytes md5 (hashFinal md5 s) } :=
  exec_succeeds .finalize s _ ((finalizeCmd_hash md5 s halg).trans ((finalizeHash_ok md5 s _).2 ⟨ha, hroom, rfl⟩))

/-- FINALIZE of an `ACTIVE` hash session without room for the digest (43_hash R181). -/
theorem exec_finalize_hash_overflow (md5 : Bool) (s : State) (ha : s.phase = .active)
    (halg : algOf s.cfg = hashAlg md5) (hfull : 4 * s.params.outWords < s.out.length + digestLen md5) :
    exec .finalize s = .next (Spec.refused s 5 0x00000005) :=
  exec_refused .finalize s .outOverflow
    ((finalizeCmd_hash md5 s halg).trans ((finalizeHash_error md5 s _).2 (.inr ⟨ha, hfull, rfl⟩)))

theorem toList_hash (h : Vector Word 8) : h.toList = [h[0], h[1], h[2], h[3], h[4], h[5], h[6], h[7]] := by
  apply List.ext_getElem
  · simp
  · intro i _ hi
    match i, hi with
    | 0, _ | 1, _ | 2, _ | 3, _ | 4, _ | 5, _ | 6, _ | 7, _ => rfl

/-- The SHA-256 digest is the eight words, each most significant byte first. -/
theorem digestBytes_sha256 (h : Vector Word 8) :
    digestBytes false h = bytesOf [h[0], h[1], h[2], h[3], h[4], h[5], h[6], h[7]] := by
  rw [digestBytes, toList_hash]
  rfl

theorem wordBytes_swap32 (w : Word) : wordBytes (swap32 w) = (wordBytes w).reverse :=
  wordBytes_wordOf ..

/-- The MD5 digest is the four words, each least significant byte first (43_hash R182). -/
theorem digestBytes_md5SwapDigest (h : Vector Word 8) : digestBytes true (md5SwapDigest h) =
    (wordBytes h[0]).reverse ++ (wordBytes h[1]).reverse ++ (wordBytes h[2]).reverse ++ (wordBytes h[3]).reverse := by
  rw [← wordBytes_swap32, ← wordBytes_swap32, ← wordBytes_swap32, ← wordBytes_swap32]
  rfl

theorem hashBlocks_succ (md5 : Bool) (n : Nat) (m : List Byte) (h : Vector Word 8) :
    hashBlocks md5 (n + 1) m h = hashBlocks md5 n (m.drop 64)
      ((if md5 then md5Compress else sha256Compress) h (wordsAt (m.take 64) 16)) := by
  cases md5 <;> rfl

/-- Settles O40: each algorithm's FINALIZE with its digest written out. -/
theorem finalizeHashPushesTheDigest : Obligations.FinalizeHashPushesTheDigest := by
  refine ⟨fun md5 n m h => ⟨rfl, hashBlocks_succ md5 n m h⟩, fun s ha => ⟨?_, ?_, ?_, ?_⟩⟩
  · intro halg hroom m h hm hh
    subst hm
    have hfinal : hashFinal false s = h := hh.symm
    rw [exec_finalize_hash false s ha halg hroom, hfinal, digestBytes_sha256]
  · intro halg hroom m h hm hh
    subst hm
    have hfinal : hashFinal true s = md5SwapDigest h := congrArg md5SwapDigest hh.symm
    rw [exec_finalize_hash true s ha halg hroom, hfinal, digestBytes_md5SwapDigest]
    simp only [← List.append_assoc]
    rfl
  · exact exec_finalize_hash_overflow false s ha
  · exact exec_finalize_hash_overflow true s ha

end Sys2Proof.Machine
end

-- Proofs of 43_hash: the SHA-256 message schedule
section
/-! The message schedule (43_hash R191): each turn of the loop adds the next word behind words it leaves as they are. -/

namespace Sys2Proof.Machine

/-- What the recurrence of 43_hash R191 makes of the words of `w` before index `t`. -/
def sha256Word (w : List Word) (t : Nat) : Word :=
  shaGamma1 (w.getD (t - 2) 0) + w.getD (t - 7) 0 + shaGamma0 (w.getD (t - 15) 0) + w.getD (t - 16) 0

theorem sha256Extend_succ (n : Nat) (w : List Word) :
    sha256Extend (n + 1) w = sha256Extend n (w ++ [sha256Word w w.length]) := rfl

theorem length_sha256Extend (n : Nat) (w : List Word) : (sha256Extend n w).length = w.length + n := by
  induction n generalizing w with
  | zero => rfl
  | succ n ih => rw [sha256Extend_succ, ih, List.length_append, List.length_singleton, Nat.add_assoc, Nat.add_comm 1]

theorem getD_sha256Extend_old (n : Nat) (w : List Word) (t : Nat) (ht : t < w.length) :
    (sha256Extend n w).getD t 0 = w.getD t 0 := by
  induction n generalizing w with
  | zero => rfl
  | succ n ih => rw [sha256Extend_succ, ih _ (by simp; omega), List.getD_append _ _ _ _ ht]

/-- The word at `t` looks only at words before it. -/
theorem sha256Word_congr (v w : List Word) (t : Nat) (ht : 0 < t) (h : ∀ i < t, v.getD i 0 = w.getD i 0) :
    sha256Word v t = sha256Word w t := by
  have hback : ∀ k, 0 < k → v.getD (t - k) 0 = w.getD (t - k) 0 := fun k hk => h _ (Nat.sub_lt ht hk)
  rw [sha256Word, hback 2 (by decide), hback 7 (by decide), hback 15 (by decide), hback 16 (by decide), sha256Word]

theorem getD_sha256Extend_new (n : Nat) (w : List Word) (t : Nat) (hw : 0 < w.length) (ht : w.length ≤ t)
    (htn : t < w.length + n) : (sha256Extend n w).getD t 0 = sha256Word (sha256Extend n w) t := by
  induction n generalizing w with
  | zero => omega
  | succ n ih =>
    rw [sha256Extend_succ]
    rcases Nat.eq_or_lt_of_le ht with rfl | hlt
    · have hold : ∀ i < w.length + 1, (sha256Extend n (w ++ [sha256Word w w.length])).getD i 0 =
          (w ++ [sha256Word w w.length]).getD i 0 := fun i hi => getD_sha256Extend_old n _ i (by simpa using hi)
      rw [hold _ (Nat.lt_succ_self _), List.getD_append_right _ _ _ _ le_rfl, Nat.sub_self]
      refine sha256Word_congr _ _ _ hw fun i hi => ?_
      rw [hold i (by omega), List.getD_append _ _ _ _ hi]
    · exact ih _ (by simp) (by simpa using hlt) (by simp; omega)

theorem length_sha256Schedule (m : List Word) : (sha256Schedule m).length = 64 := by
  simp [sha256Schedule, length_sha256Extend]

/-- The schedule begins with the block. -/
theorem getD_sha256Schedule_block (m : List Word) (t : Nat) (ht : t < 16) :
    (sha256Schedule m).getD t 0 = m.getD t 0 := by
  rw [sha256Schedule, getD_sha256Extend_old _ _ _ (by simpa using ht)]
  simp [ht]

/-- Past the block the schedule follows the recurrence. -/
theorem getD_sha256Schedule_recurrence (m : List Word) (t : Nat) (ht : 16 ≤ t) (ht' : t < 64) :
    (sha256Schedule m).getD t 0 = sha256Word (sha256Schedule m) t :=
  getD_sha256Extend_new 48 _ t (by simp) (by simpa using ht) (by simpa using ht')

/-- Settles O52: the block's words stay, and each later word is the recurrence's. -/
theorem sha256ScheduleRecurrence : Obligations.Sha256ScheduleRecurrence := fun m =>
  ⟨length_sha256Schedule m, getD_sha256Schedule_block m, getD_sha256Schedule_recurrence m⟩

end Sys2Proof.Machine
end

-- Proofs of 43_hash: the SHA-256 rounds
section
/-! The SHA-256 compression round by round (43_hash R191, R192): after `t` rounds the loop has taken the first `t` pairs
of a constant and a schedule word. -/

namespace Sys2Proof.Machine

theorem shaGamma0_eq (x : Word) : shaGamma0 x = x.rotateRight 7 ^^^ x.rotateRight 18 ^^^ (x >>> 3) := by
  rw [shaGamma0, rotr32_eq x 7 (by decide) (by decide), rotr32_eq x 18 (by decide) (by decide)]

theorem shaGamma1_eq (x : Word) : shaGamma1 x = x.rotateRight 17 ^^^ x.rotateRight 19 ^^^ (x >>> 10) := by
  rw [shaGamma1, rotr32_eq x 17 (by decide) (by decide), rotr32_eq x 19 (by decide) (by decide)]

theorem shaBigSigma0_eq (x : Word) : shaBigSigma0 x = x.rotateRight 2 ^^^ x.rotateRight 13 ^^^ x.rotateRight 22 := by
  rw [shaBigSigma0, rotr32_eq x 2 (by decide) (by decide), rotr32_eq x 13 (by decide) (by decide),
    rotr32_eq x 22 (by decide) (by decide)]

theorem shaBigSigma1_eq (x : Word) : shaBigSigma1 x = x.rotateRight 6 ^^^ x.rotateRight 11 ^^^ x.rotateRight 25 := by
  rw [shaBigSigma1, rotr32_eq x 6 (by decide) (by decide), rotr32_eq x 11 (by decide) (by decide),
    rotr32_eq x 25 (by decide) (by decide)]

/-- The model's round is the one 43_hash R191 writes. -/
theorem sha256Round_eq_step (v : ShaVars) (kt wt : Word) : sha256Round v kt wt = Spec.sha256Step v kt wt := by
  unfold sha256Round
  rw [shaBigSigma0_eq, shaBigSigma1_eq]
  rfl

/-- The working variables a SHA-256 compression starts from. -/
def sha256Start (h : Vector Word 8) : ShaVars :=
  { a := h[0], b := h[1], c := h[2], d := h[3], e := h[4], f := h[5], g := h[6], h := h[7] }

/-- The working variables after the first `t` rounds of a SHA-256 compression. -/
def sha256After (h : Vector Word 8) (m : List Word) (t : Nat) : ShaVars :=
  sha256Rounds (sha256Start h) ((sha256K.zip (sha256Schedule m)).take t)

theorem length_zip_sha256K (m : List Word) : (sha256K.zip (sha256Schedule m)).length = 64 := by
  rw [List.length_zip, sha256K_length, length_sha256Schedule, Nat.min_self]

theorem sha256After_succ (h : Vector Word 8) (m : List Word) (t : Nat) (ht : t < 64) :
    sha256After h m (t + 1) =
      Spec.sha256Step (sha256After h m t) (sha256K.getD t 0) ((sha256Schedule m).getD t 0) := by
  have hk : t < sha256K.length := by rw [sha256K_length]; exact ht
  have hw : t < (sha256Schedule m).length := by rw [length_sha256Schedule]; exact ht
  rw [sha256After, List.take_succ_eq_append_getElem (by rw [length_zip_sha256K]; exact ht), List.getElem_zip,
    sha256Rounds_append, sha256Round_eq_step, List.getD_eq_getElem _ _ hk, List.getD_eq_getElem _ _ hw]
  rfl

/-- The compression adds what 64 rounds leave to the hash words. -/
theorem sha256Compress_eq (h : Vector Word 8) (m : List Word) :
    sha256Compress h m =
      #v[h[0] + (sha256After h m 64).a, h[1] + (sha256After h m 64).b, h[2] + (sha256After h m 64).c,
        h[3] + (sha256After h m 64).d, h[4] + (sha256After h m 64).e, h[5] + (sha256After h m 64).f,
        h[6] + (sha256After h m 64).g, h[7] + (sha256After h m 64).h] := by
  rw [sha256After, List.take_of_length_le (length_zip_sha256K m).le]
  rfl

end Sys2Proof.Machine
end

-- Proofs of 43_hash: the MD5 steps
section
/-! The MD5 compression step by step (43_hash R201 to R205), its tables as 43_hash R203 and R204 write them. -/

namespace Sys2Proof.Machine

theorem md5Fn_eq (i : Nat) (b c d : Word) : md5Fn i b c d = Spec.md5F i b c d := by
  unfold md5Fn Spec.md5F
  split
  case h_1 h => rw [if_pos (by omega)]
  case h_2 h => rw [if_neg (by omega), if_pos (by omega)]
  case h_3 h => rw [if_neg (by omega), if_neg (by omega), if_pos (by omega)]
  case h_4 h0 h1 h2 =>
    have hround : i / 16 ≠ 0 ∧ i / 16 ≠ 1 ∧ i / 16 ≠ 2 := ⟨h0, h1, h2⟩
    rw [if_neg (by omega), if_neg (by omega), if_neg (by omega)]

theorem md5Idx_eq : ∀ i < 64, md5Idx i = Spec.md5Word i := by decide

theorem md5Word_lt : ∀ i < 64, Spec.md5Word i < 16 := by decide

theorem md5S_eq : ∀ i < 64, md5S i = Spec.md5Rotate i := by decide

theorem md5Rotate_lt : ∀ i < 64, Spec.md5Rotate i < 32 := by decide

theorem md5T_eq : ∀ i < 64, md5T.getD i 0 = BitVec.ofNat 32 (Spec.md5Rows.getD (i / 8) 0 >>> (32 * (7 - i % 8))) := by
  decide

/-- The message words as MD5 reads them, their bytes reversed (43_hash R201). -/
def md5Message (m : List Word) : List Word := (List.range 16).map fun j => swap32 (m.getD j 0)

theorem getD_md5Message (m : List Word) (j : Nat) (hj : j < 16) : (md5Message m).getD j 0 = swap32 (m.getD j 0) := by
  simp [md5Message, hj]

/-- The model's step is the one 43_hash R201 writes. -/
theorem md5Step_eq_next (m : List Word) (i : Nat) (hi : i < 64) (v : Md5Vars) :
    md5Step (md5Message m) i v = Spec.md5Next m i v := by
  simp only [md5Step, md5Fn_eq, md5Idx_eq i hi, md5S_eq i hi, md5T_eq i hi, getD_md5Message m _ (md5Word_lt i hi),
    rotl32_eq _ _ (md5Rotate_lt i hi)]
  rfl

/-- The state words after the first `i` steps of an MD5 compression. -/
def md5After (h : Vector Word 8) (m : List Word) (i : Nat) : Md5Vars :=
  md5Steps (md5Message m) i 0 { a := h[0], b := h[1], c := h[2], d := h[3] }

theorem md5After_succ (h : Vector Word 8) (m : List Word) (i : Nat) (hi : i < 64) :
    md5After h m (i + 1) = Spec.md5Next m i (md5After h m i) := by
  rw [md5After, md5Steps_succ, Nat.zero_add, md5Step_eq_next m i hi]
  rfl

/-- Settles O60: the working variables after each number of rounds, over the schedule or the message words. -/
theorem hashCompressionsFollowTheirRounds : Obligations.HashCompressionsFollowTheirRounds := by
  refine ⟨fun h m => ⟨fun t => (sha256Schedule m).getD t 0, sha256After h m, getD_sha256Schedule_block m, ?_, rfl,
    sha256After_succ h m, sha256Compress_eq h m⟩, fun h m => ⟨md5After h m, rfl, md5After_succ h m, rfl⟩⟩
  intro t ht ht'
  simp only [← shaGamma0_eq, ← shaGamma1_eq]
  exact getD_sha256Schedule_recurrence m t ht ht'

end Sys2Proof.Machine
end

-- Proofs of 43_hash: the SHA-256 constants
section
/-! The SHA-256 constants as roots (43_hash R190, R193): a root with 32 fraction bits is its whole part and the
constant. -/

namespace Sys2Proof.Machine

/-- A candidate for the floor of the cube root of `p * 2 ^ 96`: the whole part of the cube root of `p`, which is at most
6 for the first 64 primes, and the constant below it. -/
def cubeRootOf (p : Nat) (k : Word) : Nat := Nat.findGreatest (fun c => c ^ 3 ≤ p) 6 * 2 ^ 32 + k.toNat

/-- A candidate for the floor of the square root of `p * 2 ^ 64`: the whole part of the square root of `p`, which is at
most 4 for the first 8 primes, and the constant below it. -/
def squareRootOf (p : Nat) (k : Word) : Nat := Nat.findGreatest (fun c => c ^ 2 ≤ p) 4 * 2 ^ 32 + k.toNat

/-- A word is what a number that ends in it is mod `2 ^ 32`. -/
theorem eq_ofNat_mul_add_toNat (n : Nat) (k : Word) : k = BitVec.ofNat 32 (n * 2 ^ 32 + k.toNat) := by
  apply BitVec.eq_of_toNat_eq
  rw [BitVec.toNat_ofNat, Nat.mul_add_mod_self_right, Nat.mod_eq_of_lt k.isLt]

theorem sha256K_bounds : ∀ i < 64,
    cubeRootOf (Spec.primes.getD i 0) (sha256K.getD i 0) ^ 3 ≤ Spec.primes.getD i 0 * 2 ^ 96 ∧
      Spec.primes.getD i 0 * 2 ^ 96 < (cubeRootOf (Spec.primes.getD i 0) (sha256K.getD i 0) + 1) ^ 3 := by
  decide

theorem sha256Init_bounds : ∀ i : Fin 8,
    squareRootOf (Spec.primes.getD i 0) sha256Init[i] ^ 2 ≤ Spec.primes.getD i 0 * 2 ^ 64 ∧
      Spec.primes.getD i 0 * 2 ^ 64 < (squareRootOf (Spec.primes.getD i 0) sha256Init[i] + 1) ^ 2 := by
  decide

/-- Settles O53: each constant ends the root of its prime. -/
theorem sha256ConstantsAreRoots : Obligations.Sha256ConstantsAreRoots := by
  refine ⟨fun i hi => ?_, fun i => ?_⟩
  · obtain ⟨hle, hlt⟩ := sha256K_bounds i hi
    exact ⟨_, hle, hlt, eq_ofNat_mul_add_toNat _ _⟩
  · obtain ⟨hle, hlt⟩ := sha256Init_bounds i
    exact ⟨_, hle, hlt, eq_ofNat_mul_add_toNat _ _⟩

end Sys2Proof.Machine
end

-- Proofs of 44_cipher: padding and FINALIZE
section
/-! PKCS7 padding (44_cipher R223, R224) and the cipher `FINALIZE` of each direction (R221, R222, R230). -/

namespace Sys2Proof.Machine

/-! ### Padding and unpadding -/

theorem length_pkcs7Pad (x : List Byte) : (pkcs7Pad x).length = x.length + (16 - x.length % 16) := by
  simp [pkcs7Pad]

/-- Unpadding removes what the last byte says, clamped, whatever it says (44_cipher R224). -/
theorem pkcs7Unpad_concat (x : List Byte) (n : Byte) :
    pkcs7Unpad (x ++ [n]) = (x ++ [n]).take (x.length + 1 - n.toNat) := by
  rw [pkcs7Unpad, List.getLast?_concat]
  simp only [List.length_append, List.length_singleton]
  congr 1
  omega

/-- A pad of `p` bytes of value `p` is removed whole. -/
theorem pkcs7Unpad_append_replicate (x : List Byte) (p : Nat) (hpos : 1 ≤ p) (hp : p ≤ 16) :
    pkcs7Unpad (x ++ List.replicate p (BitVec.ofNat 8 p)) = x := by
  obtain ⟨q, rfl⟩ := Nat.exists_eq_add_of_le' hpos
  have hval : (BitVec.ofNat 8 (q + 1)).toNat = q + 1 := Nat.mod_eq_of_lt (by omega)
  have hkept : (x ++ List.replicate q (BitVec.ofNat 8 (q + 1))).length + 1 - (q + 1) = x.length := by simp
  rw [List.replicate_succ', ← List.append_assoc, pkcs7Unpad_concat, hval, hkept, List.append_assoc, List.take_left]

theorem pkcs7Unpad_pkcs7Pad (x : List Byte) : pkcs7Unpad (pkcs7Pad x) = x :=
  pkcs7Unpad_append_replicate x (16 - x.length % 16) (by omega) (by omega)

/-- Settles O43: the pad's last byte is its own count. -/
theorem pkcsUnpadRestoresPadded : Obligations.PkcsUnpadRestoresPadded := by
  refine ⟨pkcs7Unpad_pkcs7Pad, fun x => ⟨16 - x.length % 16, by omega, by omega, rfl, ?_⟩, rfl, pkcs7Unpad_concat⟩
  rw [length_pkcs7Pad]
  omega

/-! ### FINALIZE by direction -/

theorem finalizeCmd_encrypt (s : State) (ha : algOf s.cfg = .aes) (hd : decrypting s.cfg = false) :
    finalizeCmd s = finalizeEncrypt s := by
  simp [finalizeCmd, ha, hd]

theorem finalizeCmd_decrypt (s : State) (ha : algOf s.cfg = .aes) (hd : decrypting s.cfg = true) :
    finalizeCmd s = finalizeDecrypt s := by
  simp [finalizeCmd, ha, hd]

/-- Settles O41: the partial block is checked first, then the room for `encryptInput`, which is what goes through the
transform. -/
theorem finalizeEncryptPadsAndCloses : Obligations.FinalizeEncryptPadsAndCloses := by
  intro s hphase ha hd
  have hf := finalizeCmd_encrypt s ha hd
  refine ⟨fun hn hpart => ?_, fun d r hplain hpadded hr => ?_⟩
  · exact exec_refused .finalize s .partialBlock
      (hf.trans ((finalizeEncrypt_error s _).2 (.inr ⟨hphase, .inl ⟨⟨hn, hpart⟩, rfl⟩⟩)))
  · have hwhole : ¬ (noPadding s.cfg = true ∧ s.buf.length % 16 ≠ 0) := fun h => h.2 (hplain h.1).1
    have hinput : encryptInput s = d := by
      cases hn : noPadding s.cfg
      · simp [encryptInput, hn, hpadded hn]
      · simp [encryptInput, hn, (hplain hn).2]
    subst hinput
    refine ⟨fun hfull => ?_, fun hroom => ?_⟩
    · exact exec_refused .finalize s .outOverflow
        (hf.trans ((finalizeEncrypt_error s _).2 (.inr ⟨hphase, .inr ⟨hwhole, hfull, rfl⟩⟩)))
    · have hok := hf.trans ((finalizeEncrypt_ok s _).2 ⟨hphase, hwhole, hroom, rfl⟩)
      refine (exec_succeeds .finalize s _ hok).trans ?_
      rw [finishCipher_eq s _ id ha r hr]
      rfl

/-- Settles O42: the partial block is checked first, then the room for `BUF` as it is, which is what goes through the
transform. -/
theorem finalizeDecryptUnpadsAndCloses : Obligations.FinalizeDecryptUnpadsAndCloses := by
  intro s hphase ha hd
  have hf := finalizeCmd_decrypt s ha hd
  refine ⟨fun hpart => ?_, fun hwhole hfull => ?_, fun hwhole hroom r hr => ?_⟩
  · exact exec_refused .finalize s .partialBlock
      (hf.trans ((finalizeDecrypt_error s _).2 (.inr ⟨hphase, .inl ⟨hpart, rfl⟩⟩)))
  · exact exec_refused .finalize s .outOverflow
      (hf.trans ((finalizeDecrypt_error s _).2 (.inr ⟨hphase, .inr ⟨hwhole, hfull, rfl⟩⟩)))
  · have hok := hf.trans ((finalizeDecrypt_ok s _).2 ⟨hphase, hwhole, hroom, rfl⟩)
    refine (exec_succeeds .finalize s _ hok).trans ?_
    rw [finishCipher_eq s _ _ ha r hr, ite_apply]
    rfl

end Sys2Proof.Machine
end

-- Proofs of 44_cipher: who changes the inputs
section
/-! `KEY`, `IV` and `DIN` over all instructions (44_cipher R232). -/

namespace Sys2Proof.Machine

/-- Settles O54: of the commands only SRESET reaches outside the session, and each write stores in its own array. -/
theorem onlyHostWritesAndSresetChangeInputs : Obligations.OnlyHostWritesAndSresetChangeInputs := by
  intro i s t h hsreset hword
  cases exec_effect i s t h
  case command k u hi hk =>
    have hne : k ≠ .sreset := by rintro rfl; exact hi.elim hsreset hword
    have hframe := (commandCore_frame k s u hk).1 hne
    exact ⟨fun _ => ⟨hframe.key, hframe.keyWr⟩, fun _ => ⟨hframe.iv, hframe.ivWr⟩, fun _ => hframe.din⟩
  case setKey j v hi => exact ⟨fun hn => absurd hi (hn j v), fun _ => ⟨rfl, rfl⟩, fun _ => rfl⟩
  case setIv j v hi => exact ⟨fun _ => ⟨rfl, rfl⟩, fun hn => absurd hi (hn j v), fun _ => rfl⟩
  case setDin v hi => exact ⟨fun _ => ⟨rfl, rfl⟩, fun _ => ⟨rfl, rfl⟩, fun hn => absurd hi (hn v)⟩
  all_goals exact ⟨fun _ => ⟨by simp, by simp⟩, fun _ => ⟨by simp, by simp⟩, fun _ => by simp⟩

end Sys2Proof.Machine
end

-- Proofs of 45_aes: MixColumns on one column
section
/-! MixColumns on one column (45_aes R250, R253, R254). Everything is additive over XOR, so `IMC` undoes MixColumns as
soon as it does so for the four multiples of one byte. -/

namespace Sys2Proof.Machine

/-! ### Words and their bytes under XOR -/

theorem xor_left_comm {n : Nat} (x y z : BitVec n) : x ^^^ (y ^^^ z) = y ^^^ (x ^^^ z) := by ac_rfl

theorem xor_cancel_left {n : Nat} (x y : BitVec n) : x ^^^ (x ^^^ y) = y := by
  rw [← BitVec.xor_assoc, BitVec.xor_self, BitVec.zero_xor]

theorem xor_cancel_right {n : Nat} (x y : BitVec n) : x ^^^ y ^^^ y = x := by
  rw [BitVec.xor_assoc, BitVec.xor_self, BitVec.xor_zero]

theorem wordOf_xor (a b c d a' b' c' d' : Byte) :
    wordOf a b c d ^^^ wordOf a' b' c' d' = wordOf (a ^^^ a') (b ^^^ b') (c ^^^ c') (d ^^^ d') :=
  BitVec.xor_append.trans (congrArg (· ++ (d ^^^ d'))
    (BitVec.xor_append.trans (congrArg (· ++ (c ^^^ c')) BitVec.xor_append)))

@[simp] theorem rotBytes_zero (w : Word) : rotBytes w 0 = w := rfl

/-- A rotation by whole bytes is the library's rotation (45_aes R253). -/
theorem rotBytes_eq (w : Word) (k : Nat) (hk : k < 4) : rotBytes w k = w.rotateRight (8 * k) := by
  match k, hk with
  | 0, _ => simp [BitVec.rotateRight_def]
  | 1, _ => exact rotr32_eq w 8 (by decide) (by decide)
  | 2, _ => exact rotr32_eq w 16 (by decide) (by decide)
  | 3, _ => exact rotr32_eq w 24 (by decide) (by decide)

/-- A rotation by whole bytes moves each byte of a word. -/
theorem rotBytes_wordOf (a b c d : Byte) :
    rotBytes (wordOf a b c d) 1 = wordOf d a b c ∧ rotBytes (wordOf a b c d) 2 = wordOf c d a b ∧
      rotBytes (wordOf a b c d) 3 = wordOf b c d a := by
  refine ⟨?_, ?_, ?_⟩ <;> (ext i hi; grind [rotBytes, rotr32, rotl32, wordOf])

/-! ### The field (45_aes R250) -/

theorem xtime_eq (a : Byte) : xtime a = a <<< 1 ^^^ (if a.getLsbD 7 = true then 0x1b else 0) := by
  unfold xtime
  cases a.getLsbD 7 <;> simp [BitVec.setWidth_xor]

theorem xtime_xor (a b : Byte) : xtime (a ^^^ b) = xtime a ^^^ xtime b := by
  have hred : ∀ c d : Bool, (if (c ^^ d) = true then 0x1b else 0 : Byte) =
      (if c = true then 0x1b else 0) ^^^ (if d = true then 0x1b else 0) := by decide
  rw [xtime_eq, xtime_eq, xtime_eq, BitVec.getLsbD_xor, hred, BitVec.shiftLeft_xor_distrib]
  ac_rfl

theorem gmulBits_xor (n : Nat) (a b c : Byte) : gmulBits n (a ^^^ b) c = gmulBits n a c ^^^ gmulBits n b c := by
  induction n generalizing a b c with
  | zero => simp [gmulBits]
  | succ n ih =>
    rw [gmulBits, gmulBits, gmulBits, xtime_xor, ih]
    cases c.getLsbD 0
    · simp
    · simp only [if_true]
      ac_rfl

theorem gmul_xor (a b c : Byte) : gmul (a ^^^ b) c = gmul a c ^^^ gmul b c := gmulBits_xor 8 a b c

/-! The coefficients of MixColumns and InvMixColumns as sums of doublings. -/

theorem gmul_02 (a : Byte) : gmul a 0x02 = xtime a := by simp [gmul, gmulBits]

theorem gmul_03 (a : Byte) : gmul a 0x03 = xtime a ^^^ a := by simp [gmul, gmulBits, BitVec.xor_comm]

theorem gmul_09 (a : Byte) : gmul a 0x09 = a ^^^ xtime (xtime (xtime a)) := by simp [gmul, gmulBits]

theorem gmul_0b (a : Byte) : gmul a 0x0b = a ^^^ (xtime a ^^^ xtime (xtime (xtime a))) := by simp [gmul, gmulBits]

theorem gmul_0d (a : Byte) : gmul a 0x0d = a ^^^ (xtime (xtime a) ^^^ xtime (xtime (xtime a))) := by
  simp [gmul, gmulBits]

theorem gmul_0e (a : Byte) : gmul a 0x0e = xtime a ^^^ (xtime (xtime a) ^^^ xtime (xtime (xtime a))) := by
  simp [gmul, gmulBits]

/-! ### One column -/

/-- The column MixColumns makes of a byte at the top of a column (45_aes R253). -/
def mixByte (s : Byte) : Word := wordOf (xtime s) s s (xtime s ^^^ s)

/-- The column InvMixColumns makes of a byte at the top of a column (45_aes R254). -/
def invMixByte (y : Byte) : Word := wordOf (gmul y 0x0e) (gmul y 0x09) (gmul y 0x0d) (gmul y 0x0b)

/-- The sum of the columns `g` makes of the bytes of a word, each moved to its byte's place. -/
def mixWord (g : Byte → Word) (w : Word) : Word :=
  g (byteOf w 0) ^^^ rotBytes (g (byteOf w 1)) 1 ^^^ rotBytes (g (byteOf w 2)) 2 ^^^ rotBytes (g (byteOf w 3)) 3

/-- The top byte of a mixed column. -/
def mixDot (a b c d : Byte) : Byte := xtime a ^^^ (xtime b ^^^ b) ^^^ c ^^^ d

/-- The top byte of an inversely mixed column. -/
def invMixDot (a b c d : Byte) : Byte := gmul a 0x0e ^^^ gmul b 0x0b ^^^ gmul c 0x0d ^^^ gmul d 0x09

theorem mixWord_mixByte (a b c d : Byte) : mixWord mixByte (wordOf a b c d) =
    wordOf (mixDot a b c d) (mixDot b c d a) (mixDot c d a b) (mixDot d a b c) := by
  simp only [mixWord, byteOf_wordOf_zero, byteOf_wordOf_one, byteOf_wordOf_two, byteOf_wordOf_three, mixByte,
    rotBytes_wordOf, wordOf_xor, mixDot]
  congr 1 <;> ac_rfl

theorem mixWord_invMixByte (a b c d : Byte) : mixWord invMixByte (wordOf a b c d) =
    wordOf (invMixDot a b c d) (invMixDot b c d a) (invMixDot c d a b) (invMixDot d a b c) := by
  simp only [mixWord, byteOf_wordOf_zero, byteOf_wordOf_one, byteOf_wordOf_two, byteOf_wordOf_three, invMixByte,
    rotBytes_wordOf, wordOf_xor, invMixDot]
  congr 1 <;> ac_rfl

/-- InvMixColumns of the multiples MixColumns makes of one byte: the byte at its own place and nothing elsewhere. -/
theorem invMixDot_multiples (x : Byte) :
    invMixDot (xtime x) x x (xtime x ^^^ x) = x ∧ invMixDot (xtime x ^^^ x) (xtime x) x x = 0#8 ∧
      invMixDot x (xtime x ^^^ x) (xtime x) x = 0#8 ∧ invMixDot x x (xtime x ^^^ x) (xtime x) = 0#8 := by
  simp only [invMixDot, gmul_0e, gmul_0b, gmul_0d, gmul_09, xtime_xor, BitVec.xor_assoc, BitVec.xor_comm, xor_left_comm,
    xor_cancel_left, BitVec.xor_self, BitVec.xor_zero, and_self]

theorem invMixDot_mixDot (a b c d : Byte) :
    invMixDot (mixDot a b c d) (mixDot b c d a) (mixDot c d a b) (mixDot d a b c) = a := by
  obtain ⟨ha, -, -, -⟩ := invMixDot_multiples a
  obtain ⟨-, hb, -, -⟩ := invMixDot_multiples b
  obtain ⟨-, -, hc, -⟩ := invMixDot_multiples c
  obtain ⟨-, -, -, hd⟩ := invMixDot_multiples d
  calc invMixDot (mixDot a b c d) (mixDot b c d a) (mixDot c d a b) (mixDot d a b c)
      = invMixDot (xtime a) a a (xtime a ^^^ a) ^^^ invMixDot (xtime b ^^^ b) (xtime b) b b ^^^
          invMixDot c (xtime c ^^^ c) (xtime c) c ^^^ invMixDot d d (xtime d ^^^ d) (xtime d) := by
        simp only [invMixDot, mixDot, gmul_xor]
        ac_rfl
    _ = a := by rw [ha, hb, hc, hd, BitVec.xor_zero, BitVec.xor_zero, BitVec.xor_zero]

/-- InvMixColumns undoes MixColumns (45_aes R254). -/
theorem mixWord_invMixByte_mixByte (w : Word) : mixWord invMixByte (mixWord mixByte w) = w := by
  rw [← wordOf_byteOf w, mixWord_mixByte, mixWord_invMixByte]
  simp only [invMixDot_mixDot]

theorem invSbox_sbox : ∀ x : Byte, invSbox (sbox x) = x := by decide +kernel

/-- `IMC` is InvMixColumns of one column: its inverse tables meet the S-box they undo (45_aes R254). -/
theorem imc_eq (w : Word) : imc w = mixWord invMixByte w := by
  simp only [imc, invSubMix, invSubMix0, invSbox_sbox, rotBytes_zero]
  rfl

theorem imc_xor (v w : Word) : imc (v ^^^ w) = imc v ^^^ imc w := by
  rw [imc_eq, imc_eq, imc_eq, ← wordOf_byteOf v, ← wordOf_byteOf w, wordOf_xor]
  simp only [mixWord_invMixByte, wordOf_xor, invMixDot, gmul_xor]
  congr 1 <;> ac_rfl

end Sys2Proof.Machine
end

-- Proofs of 45_aes: decryption undoes encryption
section
/-! AES decryption undoes encryption (45_aes R262 to R265). Going backwards, decryption holds after `j` rounds what
encryption held before its last `j + 1` column mixings, with words 1 and 3 exchanged. -/

namespace Sys2Proof.Machine

/-! ### Blocks -/

/-- A block with each word changed by `f`. -/
def Block4.map (f : Word → Word) (x : Block4) : Block4 := { w0 := f x.w0, w1 := f x.w1, w2 := f x.w2, w3 := f x.w3 }

theorem Block4.xor_xor_cancel (x y : Block4) : (x.xor y).xor y = x := by
  simp only [Block4.xor, xor_cancel_right]

theorem Block4.swap13_xor (x y : Block4) : (x.xor y).swap13 = x.swap13.xor y.swap13 := rfl

@[simp] theorem Block4.swap13_swap13 (x : Block4) : x.swap13.swap13 = x := rfl

theorem Block4.map_swap13 (f : Word → Word) (x : Block4) : x.swap13.map f = (x.map f).swap13 := rfl

theorem Block4.map_imc_xor (x y : Block4) : (x.xor y).map imc = (x.map imc).xor (y.map imc) := by
  simp only [Block4.map, Block4.xor, imc_xor]

/-! ### One round -/

/-- A fused round is the S-box, ShiftRows and then MixColumns (45_aes R253, R262). -/
theorem fusedRound_subMix (s : Block4) : fusedRound subMix s = (finalRound sbox s).map (mixWord mixByte) := by
  simp only [fusedRound, mixColumn, finalRound, finWord, Block4.map, mixWord, byteOf_wordOf_zero, byteOf_wordOf_one,
    byteOf_wordOf_two, byteOf_wordOf_three]
  rfl

/-- A fused inverse round is the inverse S-box, inverse ShiftRows and then InvMixColumns (45_aes R254, R264). -/
theorem fusedRound_invSubMix (s : Block4) : fusedRound invSubMix s = (finalRound invSbox s).map imc := by
  simp only [fusedRound, mixColumn, finalRound, finWord, Block4.map, imc_eq, mixWord, byteOf_wordOf_zero,
    byteOf_wordOf_one, byteOf_wordOf_two, byteOf_wordOf_three]
  rfl

/-- `IMC` undoes the MixColumns of a fused round. -/
theorem map_imc_fusedRound (s : Block4) : (fusedRound subMix s).map imc = finalRound sbox s := by
  simp only [fusedRound_subMix, Block4.map, imc_eq, mixWord_invMixByte_mixByte]

/-- With words 1 and 3 exchanged the inverse S-box step undoes the S-box step, ShiftRows included (45_aes R264). -/
theorem finalRound_invSbox_swap13 (s : Block4) : finalRound invSbox (finalRound sbox s).swap13 = s.swap13 := by
  simp only [finalRound, finWord, Block4.swap13, byteOf_wordOf_zero, byteOf_wordOf_one, byteOf_wordOf_two,
    byteOf_wordOf_three, invSbox_sbox, wordOf_byteOf]

/-! ### The two schedules -/

theorem getD_vectorOf (n : Nat) (l : List Word) (i : Nat) (hi : i < n) : (vectorOf n l).getD i 0 = l.getD i 0 := by
  simp [vectorOf, Vector.getD, hi]

theorem getD_invExpand (rows : Nat) (l : List Word) (i : Nat) (hi : i < rows) :
    (invExpand rows l).getD i 0 = invRow rows l i := by
  simp [invExpand, List.getD_eq_getElem?_getD, hi]

/-- What the inverse schedule makes of the words of round key `j`: `IMC` but for the first and the last. -/
def invKeyWord (nr j : Nat) (w : Word) : Word := if j = 0 ∨ j = nr then w else imc w

theorem Block4.map_invKeyWord_end (nr j : Nat) (h : j = 0 ∨ j = nr) (x : Block4) : x.map (invKeyWord nr j) = x := by
  simp only [Block4.map, invKeyWord, if_pos h]

theorem Block4.map_invKeyWord_middle (nr j : Nat) (h : ¬ (j = 0 ∨ j = nr)) (x : Block4) :
    x.map (invKeyWord nr j) = x.map imc := by
  simp only [Block4.map, invKeyWord, if_neg h]

/-- Row `4j + m` of the inverse schedule comes from round key `nr - j`, words 1 and 3 exchanged (45_aes R261). -/
theorem invRow_block (nr j m : Nat) (l : List Word) (hj : j ≤ nr) (hm : m < 4) :
    invRow (4 * (nr + 1)) l (4 * j + m) = invKeyWord nr j (l.getD (4 * (nr - j) + (4 - m) % 4) 0) := by
  have hends : (4 * j + m < 4 ∨ 4 * (nr + 1) - (4 * j + m) ≤ 4) ↔ (j = 0 ∨ j = nr) := by omega
  have hrow : (if (4 * j + m) % 4 ≠ 0 then l.getD (4 * (nr + 1) - (4 * j + m)) 0
      else l.getD (4 * (nr + 1) - (4 * j + m) - 4) 0) = l.getD (4 * (nr - j) + (4 - m) % 4) 0 := by
    split
    · congr 1; omega
    · congr 1; omega
  simp only [invRow, hends, hrow, invKeyWord]

/-- Round key `j` of the inverse schedule is round key `nr - j` exchanged and, between the ends, mixed (45_aes R261). -/
theorem schedAt_invExpand (nr j : Nat) (l : List Word) (hnr : nr ≤ 14) (hj : j ≤ nr) :
    schedAt (vectorOf 60 (invExpand (4 * (nr + 1)) l)) (4 * j) =
      ((schedAt (vectorOf 60 l) (4 * (nr - j))).map (invKeyWord nr j)).swap13 := by
  have hrow : ∀ m < 4, (vectorOf 60 (invExpand (4 * (nr + 1)) l)).getD (4 * j + m) 0 =
      invKeyWord nr j ((vectorOf 60 l).getD (4 * (nr - j) + (4 - m) % 4) 0) := fun m hm => by
    rw [getD_vectorOf _ _ _ (by omega), getD_invExpand _ _ _ (by omega), invRow_block nr j m l hj hm,
      getD_vectorOf _ _ _ (by omega)]
  simp only [schedAt, Block4.map, Block4.swap13, Block4.mk.injEq]
  exact ⟨hrow 0 (by decide), hrow 1 (by decide), hrow 2 (by decide), hrow 3 (by decide)⟩

/-! ### The rounds -/

/-- The state of `CRYPT` after its first `r` fused rounds (45_aes R262). -/
def cryptState (t : Nat → Byte → Word) (ks : Vector Word 60) (x : Block4) (r : Nat) : Block4 :=
  fusedRounds t ks r 4 (x.xor (schedAt ks 0))

theorem cryptState_zero (t : Nat → Byte → Word) (ks : Vector Word 60) (x : Block4) :
    cryptState t ks x 0 = x.xor (schedAt ks 0) := rfl

theorem cryptState_succ (t : Nat → Byte → Word) (ks : Vector Word 60) (x : Block4) (r : Nat) :
    cryptState t ks x (r + 1) = (fusedRound t (cryptState t ks x r)).xor (schedAt ks (4 * (r + 1))) := by
  rw [cryptState, fusedRounds_succ, Nat.mul_succ, Nat.add_comm 4]
  rfl

theorem crypt_eq (nr : Nat) (ks : Vector Word 60) (t : Nat → Byte → Word) (box : Byte → Byte) (x : Block4) :
    crypt nr ks t box x = (finalRound box (cryptState t ks x (nr - 1))).xor (schedAt ks (4 * nr)) := rfl

/-- After `j` of its rounds decryption is where encryption was `j` rounds before the end. -/
theorem cryptState_decrypt (nr : Nat) (l : List Word) (hnr : nr ≤ 14) (p : Block4) (j : Nat) (hj : j < nr) :
    cryptState invSubMix (vectorOf 60 (invExpand (4 * (nr + 1)) l)) (aesEnc nr (vectorOf 60 l) p).swap13 j =
      (finalRound sbox (cryptState subMix (vectorOf 60 l) p (nr - 1 - j))).swap13 := by
  induction j with
  | zero =>
    have hkey := schedAt_invExpand nr 0 l hnr (Nat.zero_le _)
    rw [Nat.mul_zero, Block4.map_invKeyWord_end nr 0 (.inl rfl)] at hkey
    rw [cryptState_zero, hkey, aesEnc, crypt_eq, ← Block4.swap13_xor, Nat.sub_zero, Nat.sub_zero, Block4.xor_xor_cancel]
  | succ j ih =>
    obtain ⟨m, rfl⟩ : ∃ m, nr = m + 1 + j + 1 := ⟨nr - j - 2, by omega⟩
    have hkey := schedAt_invExpand (m + 1 + j + 1) (j + 1) l hnr (by omega)
    rw [Block4.map_invKeyWord_middle _ _ (by omega), show m + 1 + j + 1 - (j + 1) = m + 1 by omega] at hkey
    rw [cryptState_succ, ih (by omega), hkey, fusedRound_invSubMix, finalRound_invSbox_swap13,
      show m + 1 + j + 1 - 1 - j = m + 1 by omega, show m + 1 + j + 1 - 1 - (j + 1) = m by omega, Block4.map_swap13,
      ← Block4.swap13_xor, ← Block4.map_imc_xor, cryptState_succ, Block4.xor_xor_cancel, map_imc_fusedRound]

/-- Decryption with the inverse schedule undoes encryption, whatever the rows of the schedule are (45_aes R265). -/
theorem aesDec_aesEnc (nr : Nat) (l : List Word) (hpos : 0 < nr) (hnr : nr ≤ 14) (p : Block4) :
    aesDec nr (vectorOf 60 (invExpand (4 * (nr + 1)) l)) (aesEnc nr (vectorOf 60 l) p) = p := by
  have hstate := cryptState_decrypt nr l hnr p (nr - 1) (by omega)
  have hkey := schedAt_invExpand nr nr l hnr le_rfl
  rw [Nat.sub_self] at hstate hkey
  rw [Block4.map_invKeyWord_end nr nr (.inr rfl)] at hkey
  rw [aesDec, crypt_eq, hstate, finalRound_invSbox_swap13, hkey, ← Block4.swap13_xor, cryptState_zero,
    Block4.xor_xor_cancel, Block4.swap13_swap13]

end Sys2Proof.Machine
end

-- Proofs of 44_cipher: the cipher block and the AES in it
section
/-! The cipher block by mode and direction (44_cipher R225 to R228), and the rounds, tables and known answers of the
AES in it (45_aes R253, R254, R262 to R264, R266). -/

namespace Sys2Proof.Machine

/-! ### CIPHER_BLOCK -/

theorem cipherBlock_cbc_encrypt (c : Ctx) (chain b : Block4) (hm : modeEcb c.cfg = false)
    (hd : decrypting c.cfg = false) : cipherBlock c chain b = cbcEnc c chain b := by
  rw [cipherBlock, hm, hd]

theorem cipherBlock_cbc_decrypt (c : Ctx) (chain b : Block4) (hm : modeEcb c.cfg = false)
    (hd : decrypting c.cfg = true) : cipherBlock c chain b = cbcDec c chain b := by
  rw [cipherBlock, hm, hd]

theorem cipherBlock_ecb_encrypt (c : Ctx) (chain b : Block4) (hm : modeEcb c.cfg = true)
    (hd : decrypting c.cfg = false) : cipherBlock c chain b = ⟨aesEnc (rounds c.cfg) c.ks b, chain⟩ := by
  rw [cipherBlock, hm, hd]

theorem cipherBlock_ecb_decrypt (c : Ctx) (chain b : Block4) (hm : modeEcb c.cfg = true)
    (hd : decrypting c.cfg = true) : cipherBlock c chain b = ⟨aesDec (rounds c.cfg) c.iks b, chain⟩ := by
  rw [cipherBlock, hm, hd]

/-! ### The rounds and the tables -/

/-- `CRYPT` goes through the states between its rounds (45_aes R262). -/
theorem crypts_crypt (nr : Nat) (ks : Vector Word 60) (t : Nat → Byte → Word) (box : Byte → Byte) (x : Block4) :
    Spec.crypts nr (fun j => ks.getD j 0) t box x (crypt nr ks t box x) := by
  refine ⟨cryptState t ks x, rfl, fun r _ => ?_, fun e he => ?_⟩
  · rw [cryptState_succ]
    rfl
  · rw [he, crypt_eq]
    rfl

/-- The forward table is the MixColumns column of the S-box (45_aes R253). -/
theorem subMix_zero (x : Byte) : subMix 0 x = wordOf (gmul (sbox x) 0x02) (sbox x) (sbox x) (gmul (sbox x) 0x03) := by
  rw [gmul_02, gmul_03]
  rfl

theorem subMix_eq_rotateRight (k : Nat) (hk : k < 4) (x : Byte) : subMix k x = (subMix 0 x).rotateRight (8 * k) :=
  rotBytes_eq (subMix0 x) k hk

theorem invSubMix_eq_rotateRight (k : Nat) (hk : k < 4) (x : Byte) :
    invSubMix k x = (invSubMix 0 x).rotateRight (8 * k) :=
  rotBytes_eq (invSubMix0 x) k hk

/-! ### The known answers -/

theorem aesEnc_known_128 : aesEnc 10 (vectorOf 60 (keyExpand 4 Spec.knownKey)) Spec.knownPlain =
    ⟨0x69c4e0d8, 0x6a7b0430, 0xd8cdb780, 0x70b4c55a⟩ := by decide +kernel

theorem aesEnc_known_192 : aesEnc 12 (vectorOf 60 (keyExpand 6 Spec.knownKey)) Spec.knownPlain =
    ⟨0xdda97ca4, 0x864cdfe0, 0x6eaf70a0, 0xec0d7191⟩ := by decide +kernel

theorem aesEnc_known_256 : aesEnc 14 (vectorOf 60 (keyExpand 8 Spec.knownKey)) Spec.knownPlain =
    ⟨0x8ea2b7ca, 0x516745bf, 0xeafc4990, 0x4b496089⟩ := by decide +kernel

/-- R264's example is the answer of R266 decrypted. -/
theorem aesDec_known_256 : aesDec 14 (vectorOf 60 (invExpand 60 (keyExpand 8 Spec.knownKey)))
    ⟨0x8ea2b7ca, 0x516745bf, 0xeafc4990, 0x4b496089⟩ = Spec.knownPlain := by
  rw [← aesEnc_known_256]
  exact aesDec_aesEnc 14 _ (by decide) le_rfl _

/-- Settles O47: `CRYPT` by its states, the tables by their columns, the answers by evaluation, and `CIPHER_BLOCK` by
its four arms. -/
theorem cipherBlockFollowsModeAndDirection : Obligations.CipherBlockFollowsModeAndDirection := by
  refine ⟨fun nr ks p => crypts_crypt nr ks subMix sbox p,
    fun nr iks q => ⟨_, crypts_crypt nr iks invSubMix invSbox q.swap13, rfl⟩,
    fun x => ⟨subMix_zero x, rfl, fun k hk => ⟨subMix_eq_rotateRight k hk x, invSubMix_eq_rotateRight k hk x⟩⟩,
    aesEnc_known_128, aesEnc_known_192, aesEnc_known_256, aesDec_known_256,
    fun c chain b => ⟨fun hm hd => ?_, fun hm hd o ho => ?_, cipherBlock_ecb_encrypt c chain b,
      cipherBlock_ecb_decrypt c chain b⟩⟩
  · rw [cipherBlock_cbc_encrypt c chain b hm hd]
    exact ⟨rfl, rfl⟩
  · rw [cipherBlock_cbc_decrypt c chain b hm hd, ho]
    exact ⟨rfl, rfl⟩

end Sys2Proof.Machine
end

-- Proofs of 44_cipher: the round trip of a message
section
/-! What `FINALIZE` encrypts, `FINALIZE` of a session with the same schedules and chain decrypts (44_cipher R231): block
by block the two chains stay the same. -/

namespace Sys2Proof.Machine

/-! ### The configuration with `DIR` set -/

/-- `DIR` lies outside every other field (10_state R23). -/
theorem extractLsb'_or_dir (c : Word) (i n : Nat) (h : (0x4 : Word).extractLsb' i n = 0#n) :
    (c ||| 0x4).extractLsb' i n = c.extractLsb' i n := by
  rw [BitVec.extractLsb'_or, h, BitVec.or_zero]

theorem algOf_or_dir (c : Word) : algOf (c ||| 0x4) = algOf c := by
  rw [algOf_eq_iff, extractLsb'_or_dir c 0 2 (by decide), ← algOf_eq_iff]

theorem decrypting_or_dir (c : Word) : decrypting (c ||| 0x4) = true := by simp [decrypting]

theorem modeEcb_or_dir (c : Word) : modeEcb (c ||| 0x4) = modeEcb c := by simp [modeEcb]

theorem noPadding_or_dir (c : Word) : noPadding (c ||| 0x4) = noPadding c := by simp [noPadding]

theorem rounds_or_dir (c : Word) : rounds (c ||| 0x4) = rounds c := by
  simp only [rounds, keyWords, kszOf, extractLsb'_or_dir c 8 2 (by decide)]

theorem blkwOf_or_dir (c : Word) : blkwOf (c ||| 0x4) = blkwOf c := by
  rw [blkwOf, extractLsb'_or_dir c 16 5 (by decide), blkwOf]

theorem blockBytes_or_dir (c : Word) : blockBytes (c ||| 0x4) = blockBytes c := by
  rw [blockBytes, blockWords, blkwOf_or_dir, algOf_or_dir, blockBytes, blockWords]

/-! ### One block -/

/-- An encrypting and a decrypting AES session of one mode whose schedules undo each other. -/
structure Undoes (e d : Ctx) : Prop where
  aes : algOf e.cfg = .aes ∧ algOf d.cfg = .aes
  blocks : blockBytes e.cfg = 16 ∧ blockBytes d.cfg = 16
  dir : decrypting e.cfg = false ∧ decrypting d.cfg = true
  mode : modeEcb d.cfg = modeEcb e.cfg
  dec_enc : ∀ p, aesDec (rounds d.cfg) d.iks (aesEnc (rounds e.cfg) e.ks p) = p

theorem Block4.ofWords_bytesOf_words (b : Block4) : Block4.ofWords (wordsAt (bytesOf b.words) 4) = b := by
  rw [show wordsAt (bytesOf b.words) 4 = b.words from wordsAt_bytesOf b.words]
  rfl

theorem Block4.bytesOf_ofWords_words (s : List Byte) (h : s.length = 16) :
    bytesOf (Block4.ofWords (wordsAt s 4)).words = s :=
  bytesOf_wordsAt 4 s h

/-- One block of an AES session. -/
theorem blockXform_aes (c : Ctx) (x : XState) (s : List Byte) (ha : algOf c.cfg = .aes) (hb : blockBytes c.cfg = 16)
    (r : Chained) (hr : r = cipherBlock c (Block4.ofVector x.chain) (Block4.ofWords (wordsAt s 4))) :
    blockXform c x s = { xs := { x with chain := r.chain.toVector }, bytes := bytesOf r.output.words } := by
  have hw : blockWords c.cfg = 4 := by
    unfold blockBytes at hb
    omega
  rw [blockXform, ha, hw, hr]

section
variable {e d : Ctx} (h : Undoes e d)
include h

/-- Decrypting a block gives it back and leaves the chain encryption left (44_cipher R225 to R227). -/
theorem Undoes.cipherBlock (chain b : Block4) : Machine.cipherBlock d chain (Machine.cipherBlock e chain b).output =
    { output := b, chain := (Machine.cipherBlock e chain b).chain } := by
  obtain ⟨henc, hdec⟩ := h.dir
  cases hm : modeEcb e.cfg
  · rw [cipherBlock_cbc_encrypt e chain b hm henc, cipherBlock_cbc_decrypt d chain _ (h.mode.trans hm) hdec]
    simp only [cbcEnc, cbcDec, h.dec_enc, Block4.xor_xor_cancel]
  · rw [cipherBlock_ecb_encrypt e chain b hm henc, cipherBlock_ecb_decrypt d chain _ (h.mode.trans hm) hdec]
    simp only [h.dec_enc]

theorem Undoes.blockXform (x y : XState) (s : List Byte) (hs : s.length = 16) (hxy : y.chain = x.chain) :
    (Machine.blockXform d y (Machine.blockXform e x s).bytes).bytes = s ∧
      (Machine.blockXform d y (Machine.blockXform e x s).bytes).xs.chain = (Machine.blockXform e x s).xs.chain := by
  rw [blockXform_aes e x s h.aes.1 h.blocks.1 _ rfl, blockXform_aes d y _ h.aes.2 h.blocks.2 _ rfl, hxy,
    Block4.ofWords_bytesOf_words, h.cipherBlock]
  exact ⟨Block4.bytesOf_ofWords_words s hs, rfl⟩

/-- Decrypting the output of a run of whole blocks gives back what went in. -/
theorem Undoes.xform (n : Nat) (s : List Byte) (x y : XState) (hs : s.length = 16 * n) (hxy : y.chain = x.chain) :
    (Machine.xform d n (Machine.xform e n s x).bytes y).bytes = s := by
  induction n generalizing s x y with
  | zero => exact (List.length_eq_zero_iff.1 hs).symm
  | succ n ih =>
    obtain ⟨he, hd⟩ := h.blocks
    obtain ⟨hbytes, hchain⟩ := h.blockXform x y (s.take 16) (by rw [List.length_take]; omega) hxy
    have hlen : (Machine.blockXform e x (s.take 16)).bytes.length = 16 := by
      rw [blockXform_aes e x _ h.aes.1 he _ rfl, length_bytesOf]
      rfl
    rw [xform_succ, xform_succ, he, hd]
    simp only [List.take_left' hlen, List.drop_left' hlen, hbytes]
    rw [ih _ _ _ (by rw [List.length_drop]; omega) hchain, List.take_append_drop]

end

/-! ### The two sessions -/

/-- A legal AES configuration has at most 14 rounds (10_state R24). -/
theorem rounds_le (c : Word) (hl : configLegal c = true) (ha : algOf c = .aes) : rounds c ≤ 14 := by
  have hk : kszOf c ≠ 3 := by
    simp only [configLegal, ha, Bool.and_eq_true, decide_eq_true_iff] at hl
    exact hl.1
  rw [rounds, keyWords_eq_nk c hk]
  unfold Spec.nk
  split_ifs <;> decide

/-- The session that decrypts with the schedules of a state of the invariant undoes it. -/
theorem Inv.undoes {e d : State} (h : Inv e) (ha : algOf e.cfg = .aes) (hphase : e.phase = .active)
    (henc : decrypting e.cfg = false) (hcfg : d.cfg = e.cfg ||| 0x4) (hiks : d.iks = e.iks) : Undoes e.ctx d.ctx := by
  obtain ⟨key, -, hks, hinv⟩ := h.schedules (by simp [hphase]) ha
  have hbb := blockBytes_aes e.cfg h.cfg_legal ha
  exact {
    aes := ⟨ha, by rw [State.ctx_cfg, hcfg, algOf_or_dir, ha]⟩
    blocks := ⟨hbb, by rw [State.ctx_cfg, hcfg, blockBytes_or_dir, hbb]⟩
    dir := ⟨henc, by rw [State.ctx_cfg, hcfg, decrypting_or_dir]⟩
    mode := by rw [State.ctx_cfg, hcfg, modeEcb_or_dir, State.ctx_cfg]
    dec_enc := fun p => by
      rw [State.ctx_cfg, State.ctx_cfg, State.ctx_ks, State.ctx_iks, hcfg, rounds_or_dir, hiks, hks, hinv]
      exact aesDec_aesEnc (rounds e.cfg) _ (Nat.succ_pos _) (rounds_le e.cfg h.cfg_legal ha) p }

/-- What decrypt `FINALIZE` makes of the bytes it decrypts gives back what encrypt `FINALIZE` encrypted. -/
theorem unpad_encryptInput (s : State) :
    (if noPadding s.cfg = true then id else pkcs7Unpad) (encryptInput s) = s.buf := by
  cases hn : noPadding s.cfg
  · simp [encryptInput, hn, pkcs7Unpad_pkcs7Pad]
  · simp [encryptInput, hn]

/-- Settles O49: the ciphertext is as long as the padded message, so it is whole blocks and has room; decrypting it
gives back the padded message. -/
theorem cipherSessionRoundTrip : Obligations.CipherSessionRoundTrip := by
  intro e d te hea hda hinv ha henc hcfg _ hiks hchain heout hdout hparams _ hexec hdone hbuf
  obtain ⟨u, hu, rfl⟩ := exec_finalize_done e te hexec hea hdone
  rw [finalizeCmd_encrypt e ha henc] at hu
  obtain ⟨-, hpart, hroom, rfl⟩ := (finalizeEncrypt_ok e u).1 hu
  have hwhole := encryptInput_whole e hpart
  have hblocks : (encryptInput e).length = 16 * ((encryptInput e).length / 16) := by omega
  have hct : d.buf = (xform e.ctx ((encryptInput e).length / 16) (encryptInput e) e.xstate).bytes := by
    rw [hbuf, State.respond_out, State.finishCipher_out, heout]
    rfl
  have hlen : d.buf.length = (encryptInput e).length := by
    rw [hct, xform_aes_length e.ctx _ _ _ ha, ← hblocks]
  have hok : finalizeCmd d = .ok (d.finishCipher d.buf (if noPadding d.cfg = true then id else pkcs7Unpad)) := by
    rw [finalizeCmd_decrypt d (by rw [hcfg, algOf_or_dir, ha]) (by rw [hcfg, decrypting_or_dir])]
    refine (finalizeDecrypt_ok d _).2 ⟨hda, by rw [hlen, hwhole], ?_, rfl⟩
    rw [hdout, hlen, hparams, ← heout]
    exact hroom
  have hmessage : (xform d.ctx (d.buf.length / 16) d.buf d.xstate).bytes = encryptInput e := by
    rw [hlen, hct]
    exact (hinv.undoes ha hea henc hcfg hiks).xform _ _ _ _ hblocks hchain
  refine ⟨_, exec_succeeds .finalize d _ hok, rfl, ?_⟩
  rw [State.respond_out, State.finishCipher_out, hmessage, hdout, hcfg, noPadding_or_dir, unpad_encryptInput]
  rfl

end Sys2Proof.Machine
end

-- Proofs of 45_aes: the S-box and InvMixColumns
section
/-! The S-box by the field it comes from (45_aes R250 to R252), and `IMC` over the forward tables (R253, R254). -/

namespace Sys2Proof.Machine

/-! ### The S-box -/

/-- The affine map of the S-box (45_aes R251). -/
def sboxAffine (y : Byte) : Byte :=
  y ^^^ y.rotateLeft 1 ^^^ y.rotateLeft 2 ^^^ y.rotateLeft 3 ^^^ y.rotateLeft 4 ^^^ 0x63

/-- The affine map backwards. -/
def sboxAffineInv (s : Byte) : Byte := s.rotateLeft 1 ^^^ s.rotateLeft 3 ^^^ s.rotateLeft 6 ^^^ 0x05

theorem sboxAffine_sboxAffineInv : ∀ s : Byte, sboxAffine (sboxAffineInv s) = s := by decide +kernel

/-- The S-box, taken back through its affine map, is the field inverse, 0 for 0 (45_aes R251). -/
def fieldInv (x : Byte) : Byte := sboxAffineInv (sbox x)

theorem fieldInv_zero : fieldInv 0 = 0 := by decide

theorem gmul_fieldInv : ∀ x : Byte, x ≠ 0 → gmul x (fieldInv x) = 1 := by decide +kernel

theorem sbox_eq_sboxAffine (x : Byte) : sbox x = sboxAffine (fieldInv x) := (sboxAffine_sboxAffineInv (sbox x)).symm

theorem finite_bitVec (w : Nat) : Finite (BitVec w) :=
  .of_injective BitVec.toFin fun _ _ h => BitVec.eq_of_toFin_eq h

/-- What undoes a map of a finite set to itself from the left undoes it from the right. -/
theorem rightInverse_of_leftInverse_of_finite {α : Type} [Finite α] {f g : α → α} (h : f.LeftInverse g) :
    f.RightInverse g :=
  h.rightInverse_of_surjective (Finite.injective_iff_surjective.1 h.injective)

theorem sbox_invSbox (x : Byte) : sbox (invSbox x) = x :=
  have := finite_bitVec 8
  rightInverse_of_leftInverse_of_finite invSbox_sbox x

/-- Settles O45: the field inverse is the `y`, and the S-box, undone from the left on finitely many bytes, is undone
from the right. -/
theorem sboxIsAffineOfFieldInverse : Obligations.SboxIsAffineOfFieldInverse := fun x =>
  ⟨⟨fieldInv x, fun h => h ▸ fieldInv_zero, gmul_fieldInv x, sbox_eq_sboxAffine x⟩, invSbox_sbox x, sbox_invSbox x⟩

/-! ### IMC over the forward tables -/

/-- A forward table entry of `INV_SBOX[x]` is the MixColumns column of `x` itself (45_aes R253). -/
theorem subMix_invSbox (k : Nat) (x : Byte) : subMix k (invSbox x) = rotBytes (mixByte x) k := by
  rw [subMix, subMix0, sbox_invSbox, mixByte]

/-- Settles O46: the four entries sum to MixColumns of the column, and `IMC` is InvMixColumns. -/
theorem imcUndoesMixColumns : Obligations.ImcUndoesMixColumns := by
  intro a b c d
  have hmix : subMix 0 (invSbox a) ^^^ subMix 1 (invSbox b) ^^^ subMix 2 (invSbox c) ^^^ subMix 3 (invSbox d) =
      mixWord mixByte (wordOf a b c d) := by
    simp only [subMix_invSbox, mixWord, byteOf_wordOf_zero, byteOf_wordOf_one, byteOf_wordOf_two,
      byteOf_wordOf_three, rotBytes_zero]
  rw [hmix, imc_eq, mixWord_invMixByte_mixByte]

end Sys2Proof.Machine
end

-- Proofs of 45_aes: encryption undoes decryption
section
/-! The other direction of the inverse law (45_aes R265). Blocks are finitely many, so decryption, which undoes
encryption on every block, is also undone by it. -/

namespace Sys2Proof.Machine

theorem finite_block4 : Finite Block4 :=
  have := finite_bitVec 32
  .of_injective (fun x : Block4 => (x.w0, x.w1, x.w2, x.w3)) fun x y h => by
    cases x
    cases y
    simpa using h

/-- Encryption undoes decryption with the inverse schedule, whatever the rows of the schedule are (45_aes R265). -/
theorem aesEnc_aesDec (nr : Nat) (l : List Word) (hpos : 0 < nr) (hnr : nr ≤ 14) (p : Block4) :
    aesEnc nr (vectorOf 60 l) (aesDec nr (vectorOf 60 (invExpand (4 * (nr + 1)) l)) p) = p :=
  have := finite_block4
  rightInverse_of_leftInverse_of_finite (aesDec_aesEnc nr l hpos hnr) p

/-- Settles O48: at most 14 rounds fit the schedule's 60 words, whatever its rows. -/
theorem aesDecryptInvertsEncrypt : Obligations.AesDecryptInvertsEncrypt := by
  rintro nk key ks iks hnk - rfl rfl p
  have hnr : nk + 6 ≤ 14 := by omega
  exact ⟨aesDec_aesEnc (nk + 6) _ (by omega) hnr p, aesEnc_aesDec (nk + 6) _ (by omega) hnr p⟩

end Sys2Proof.Machine
end

-- Proofs of 45_aes: the schedules after INIT
section
/-! What an AES `INIT` leaves in the two schedules (45_aes R260, R261; 41_session R131). The loop of the key expansion
adds a row at the end and keeps the rows it has, so that they go on following the recurrence. -/

namespace Sys2Proof.Machine

/-! ### The loop of the key expansion -/

/-- What the recurrence of 45_aes R260 makes of the rows before row `r`. -/
def keyRow (nk : Nat) (rows : List Word) (r : Nat) : Word :=
  rows.getD (r - nk) 0 ^^^ keyMix nk r (rows.getD (r - 1) 0)

/-- From row `nk` on each row is the recurrence's. -/
def FollowsKeyRow (nk : Nat) (rows : List Word) : Prop :=
  ∀ r, nk ≤ r → r < rows.length → rows.getD r 0 = keyRow nk rows r

theorem keyRows_succ (nk n : Nat) (rows : List Word) :
    keyRows nk (n + 1) rows = keyRows nk n (rows ++ [keyRow nk rows rows.length]) := rfl

/-- Rows added at the end leave the recurrence of the rows before them. -/
theorem keyRow_append (nk : Nat) (rows more : List Word) (r : Nat) (hnk : 0 < nk) (hr : nk ≤ r)
    (hlen : r ≤ rows.length) : keyRow nk (rows ++ more) r = keyRow nk rows r := by
  rw [keyRow, List.getD_append _ _ _ _ (by omega), List.getD_append _ _ _ _ (by omega), keyRow]

theorem FollowsKeyRow.snoc {nk : Nat} {rows : List Word} (h : FollowsKeyRow nk rows) (hnk : 0 < nk) :
    FollowsKeyRow nk (rows ++ [keyRow nk rows rows.length]) := by
  intro r hr hlen
  rw [List.length_append, List.length_singleton] at hlen
  rw [keyRow_append _ _ _ _ hnk hr (by omega)]
  rcases Nat.lt_succ_iff_lt_or_eq.1 hlen with hlt | rfl
  · rw [List.getD_append _ _ _ _ hlt, h r hr hlt]
  · rw [List.getD_append_right _ _ _ _ le_rfl, Nat.sub_self, List.getD_cons_zero]

theorem FollowsKeyRow.keyRows {nk : Nat} (hnk : 0 < nk) (n : Nat) {rows : List Word} (h : FollowsKeyRow nk rows) :
    FollowsKeyRow nk (keyRows nk n rows) := by
  induction n generalizing rows with
  | zero => exact h
  | succ n ih => exact ih (h.snoc hnk)

theorem isPrefix_keyRows (nk n : Nat) (rows : List Word) : rows <+: keyRows nk n rows := by
  induction n generalizing rows with
  | zero => exact List.prefix_rfl
  | succ n ih => exact (List.prefix_append _ _).trans (ih _)

theorem length_keyRows (nk n : Nat) (rows : List Word) : (keyRows nk n rows).length = rows.length + n := by
  induction n generalizing rows with
  | zero => rfl
  | succ n ih => rw [keyRows_succ, ih, List.length_append, List.length_singleton, Nat.add_assoc, Nat.add_comm 1]

/-! ### The forward schedule -/

theorem length_keyExpand (nk : Nat) (key : List Word) (h : nk ≤ key.length) :
    (keyExpand nk key).length = 4 * (nk + 7) := by
  rw [keyExpand, length_keyRows, List.length_take_of_le h, rowsFor]
  omega

theorem getD_keyExpand_key (nk : Nat) (key : List Word) (r : Nat) (h : nk ≤ key.length) (hr : r < nk) :
    (keyExpand nk key).getD r 0 = key.getD r 0 := by
  obtain ⟨more, hmore⟩ := isPrefix_keyRows nk (rowsFor nk - nk) (key.take nk)
  rw [keyExpand, ← hmore, List.getD_append _ _ _ _ (by rw [List.length_take_of_le h]; exact hr)]
  simp [List.getD_eq_getElem?_getD, hr]

theorem getD_keyExpand_row (nk : Nat) (key : List Word) (r : Nat) (hnk : 0 < nk) (h : nk ≤ key.length) (hr : nk ≤ r)
    (hlen : r < 4 * (nk + 7)) : (keyExpand nk key).getD r 0 = keyRow nk (keyExpand nk key) r := by
  have hkey : FollowsKeyRow nk (key.take nk) := fun r hr hlt => by
    rw [List.length_take] at hlt
    omega
  exact hkey.keyRows hnk _ r hr ((length_keyExpand nk key h).symm ▸ hlen)

/-! ### What each row XORs into the row `NK` back -/

theorem wordOf_zeros (b : Byte) : wordOf b 0 0 0 = b.setWidth 32 <<< 24 := by
  ext i hi
  grind [wordOf]

theorem keyMix_multiple (nk r : Nat) (t : Word) (h : r % nk = 0) :
    keyMix nk r t = subWord (rotWord t) ^^^ ((rcon.getD (r / nk) 0).setWidth 32 <<< 24) := by
  rw [keyMix, if_pos h, wordOf_zeros]

theorem keyMix_eight (r : Nat) (t : Word) (h : r % 8 = 4) : keyMix 8 r t = subWord t := by
  rw [keyMix, if_neg (by omega), if_pos ⟨by decide, h⟩]

theorem keyMix_other (nk r : Nat) (t : Word) (h : r % nk ≠ 0) (h' : ¬ (6 < nk ∧ r % nk = 4)) : keyMix nk r t = t := by
  rw [keyMix, if_neg h, if_neg h']

/-! ### INIT -/

theorem getD_vectorOf_of_length_le (n : Nat) (l : List Word) (r : Nat) (h : l.length ≤ r) :
    (vectorOf n l).getD r 0 = 0 := by
  rcases Nat.lt_or_ge r n with hr | hr
  · rw [getD_vectorOf n l r hr, List.getD_eq_default _ _ h]
  · simp [Vector.getD, hr]

theorem nk_cases (c : Word) : Spec.nk c = 4 ∨ Spec.nk c = 6 ∨ Spec.nk c = 8 := by
  unfold Spec.nk
  split_ifs <;> simp

/-- An AES `INIT` loads the two schedules of the key and the IV (41_session R131). -/
theorem exec_init_aes (s : State) (h : Spec.configOk s) (ha : s.ctrl.extractLsb' 0 2 = 0) :
    exec .init s = .next { Spec.started s with
      ks := vectorOf 60 (keyExpand (Spec.nk s.ctrl) s.key.toList)
      iks := vectorOf 60 (invExpand (4 * (Spec.nk s.ctrl + 7)) (keyExpand (Spec.nk s.ctrl) s.key.toList))
      chain := s.iv } := by
  have ⟨haes, _⟩ := h
  rw [exec_init s h, State.loadAlgorithm, (algOf_eq_iff _ .aes).2 ha, ← keyWords_eq_nk s.ctrl (haes ha).1]
  rfl

theorem nk_le_key (s : State) : Spec.nk s.ctrl ≤ s.key.toList.length := by
  have := nk_cases s.ctrl
  rw [Vector.length_toList]
  omega

/-- Settles O28: the rows of the expansion are the key's and then the recurrence's, and the 60 words of `KS` hold them
all. -/
theorem initExpandsTheAesKey : Obligations.InitExpandsTheAesKey := by
  intro s h ha
  have hnk := nk_cases s.ctrl
  have hkey := nk_le_key s
  refine ⟨_, exec_init_aes s h ha, rfl, ?_⟩
  generalize Spec.nk s.ctrl = nk at hnk hkey
  have hks : ∀ r < 4 * (nk + 7),
      (vectorOf 60 (keyExpand nk s.key.toList)).getD r 0 = (keyExpand nk s.key.toList).getD r 0 :=
    fun r hr => getD_vectorOf _ _ _ (by omega)
  refine ⟨fun r hr => ?_, fun r hr hlen => ?_, fun r hr => ?_⟩
  · rw [hks r (by omega), getD_keyExpand_key nk _ r hkey hr]
    simp [Vector.getD]
  · dsimp only
    rw [hks r hlen, hks (r - 1) (by omega), hks (r - nk) (by omega), getD_keyExpand_row nk _ r (by omega) hkey hr hlen,
      keyRow]
    refine ⟨fun hm => ?_, ?_, fun hm h4 => ?_⟩
    · rw [keyMix_multiple nk r _ hm]
    · rintro rfl hm
      rw [hks (r - 8) (by omega), keyMix_eight r _ hm]
    · have hother : ¬ (6 < nk ∧ r % nk = 4) := fun ⟨hlt, hmod⟩ => by
        obtain rfl : nk = 8 := by omega
        exact h4 ⟨rfl, hmod⟩
      rw [keyMix_other nk r _ hm hother]
  · exact getD_vectorOf_of_length_le _ _ _ (by rwa [length_keyExpand nk _ hkey])

/-- Settles O29: a row of the inverse schedule is a row of the round key mirrored, and both schedules fit 60 words. -/
theorem initInvertsTheSchedule : Obligations.InitInvertsTheSchedule := by
  intro s h ha
  have hnk := nk_cases s.ctrl
  refine ⟨_, exec_init_aes s h ha, fun j hj m hm => ?_, fun r hr => ?_⟩
  · dsimp only
    rw [getD_vectorOf _ _ _ (by omega), getD_vectorOf _ _ _ (by omega), getD_invExpand _ _ _ (by omega),
      invRow_block (Spec.nk s.ctrl + 6) j m _ hj hm, invKeyWord]
    split <;> rfl
  · exact getD_vectorOf_of_length_le _ _ _ (by simpa [invExpand] using hr)

end Sys2Proof.Machine
end

-- Proofs of 60_exceptions: the capture and the interrupt level
section
/-! The error capture of 60_exceptions R302 and the level of `IRQ` (R307). -/

namespace Sys2Proof.Machine

/-- Settles O21: the capture's one test is on `ERR`. -/
theorem errorCaptureKeepsTheFirst : Obligations.ErrorCaptureKeepsTheFirst :=
  ⟨fun _ _ _ h => if_pos h, fun _ _ _ h => if_neg (by simp [h]), rfl, rfl, rfl, rfl, rfl, rfl, rfl⟩

theorem outNe_eq_true (s : State) : outNe s = true ↔ 0 < s.out.length := decide_eq_true_iff

/-- Settles O17: the Boolean terms of `irq` read as propositions, and no enable bit is set at reset. -/
theorem irqIsTheEnabledConditions : Obligations.IrqIsTheEnabledConditions := by
  refine ⟨fun s => ?_, by decide⟩
  simp only [irq, Bool.or_eq_true, Bool.and_eq_true, decide_eq_true_eq, outNe_eq_true, or_assoc]

end Sys2Proof.Machine
end

-- Proofs of 60_exceptions: the capture stands in the way of nothing
section
/-! Over all instructions but those that clear the capture (60_exceptions R303, R306): from states that differ in the
capture alone, an instruction raises the same error, or has the same effect (R300). Every instruction is a command, a
read or a write of a register, and each of the three is one lemma. -/

namespace Sys2Proof.Machine

/-- Every instruction is a command's row, the read of a register, or the write of one (30_encoding R80). -/
theorem instr_cases (i : Instr) :
    (∃ k : Command, i = k.toInstr) ∨ (∃ r, i = .ofRead r) ∨ ∃ v r, i = .ofWrite v r := by
  by_cases hwf : i.wf = true
  · have hdecode := decodeOfEncodeGivesTheInstruction i hwf
    cases he : encode i with rw [he] at hdecode
    | cmd c =>
      obtain ⟨k, -, hk⟩ := (decode_cmd_ok_iff c i).1 hdecode
      exact .inl ⟨k, hk⟩
    | read a =>
      obtain ⟨r, -, -, hr⟩ := (decode_read_ok_iff a i).1 hdecode
      exact .inr (.inl ⟨r, hr⟩)
    | write a v =>
      obtain ⟨r, -, -, hr⟩ := (decode_write_ok_iff a v i).1 hdecode
      exact .inr (.inr ⟨v, r, hr⟩)
  · cases i
    case rdKs j => exact .inr (.inl ⟨.ks j, rfl⟩)
    case wrKs j v => exact .inr (.inr ⟨v, .ks j, rfl⟩)
    case rdIks j => exact .inr (.inl ⟨.iks j, rfl⟩)
    case wrIks j v => exact .inr (.inr ⟨v, .iks j, rfl⟩)
    all_goals exact absurd rfl hwf

/-- The instructions that clear the capture (60_exceptions R306). -/
def Clears (i : Instr) : Prop := Issues i .sreset ∨ ∃ v, v.getLsbD 2 = true ∧ i = .wrStatus v

/-- What an instruction does from `s`, whatever capture `c` stands in place of that of `s`. -/
inductive IgnoresCapture (i : Instr) (s : State) : Prop
  /-- It raises one error and has no other effect. -/
  | raises (e : ErrCode) (info : Word) (a : BusResponse)
      (hx : ∀ c, exec i (s.withCapture c) = .next (((s.withCapture c).raise e info).respond a))
  /-- It has one effect, the capture left as it is; only a read of the capture answers by it. -/
  | keeps (u : State) (a : State → BusResponse)
      (hx : ∀ c, exec i (s.withCapture c) = .next ((u.withCapture c).respond (a c)))
      (ha : i ≠ .rdStatus → i ≠ .rdErrInfo → ∀ c d, a c = a d)

/-- An effect whose bus answer does not depend on the capture either. -/
theorem IgnoresCapture.keepsWith {i : Instr} {s : State} (u : State) (a : BusResponse)
    (hx : ∀ c, exec i (s.withCapture c) = .next ((u.withCapture c).respond a)) : IgnoresCapture i s :=
  .keeps u (fun _ => a) hx fun _ _ _ _ => rfl

theorem IgnoresCapture.command {i : Instr} {k : Command} (hi : Issues i k) (hk : k ≠ .sreset) (s : State) :
    IgnoresCapture i s := by
  have hrow : ∀ c, exec i (s.withCapture c) =
      endCommand k.word (s.withCapture c) ((commandCore k s).map (·.withCapture c)) := fun c => by
    rw [← commandCore_withCapture k s c hk, ← exec_command]
    rcases hi with rfl | rfl
    · rfl
    · exact execWrCmd_word k _
  cases hcore : commandCore k s with
  | error e => exact .raises e k.word .writeDone fun c => by rw [hrow, hcore]; rfl
  | ok u => exact .keepsWith u .writeDone fun c => by rw [hrow, hcore]; rfl

/-- Only `STATUS` and `ERRINFO` show the capture (60_exceptions R302). -/
theorem regValue_withCapture (r : Reg) (hstatus : r ≠ .status) (hinfo : r ≠ .errInfo) (s c : State) :
    regValue (s.withCapture c) r = regValue s r := by
  cases r
  case status => exact absurd rfl hstatus
  case errInfo => exact absurd rfl hinfo
  all_goals rfl

theorem IgnoresCapture.read (r : Reg) (s : State) : IgnoresCapture (.ofRead r) s := by
  by_cases hd : r = .dout
  · subst hd
    by_cases ho : s.out = []
    · exact .raises .outUnderflow doutMarker (.readData 0) fun _ => if_pos (List.length_eq_zero_iff.2 ho)
    · exact .keepsWith { s with out := s.out.drop 4 } (.readData (wordAt s.out 0))
        fun c => exec_rdDout_pops (s.withCapture c) ho
  by_cases hm : r.mapped = true
  · refine .keeps s (fun c => .readData (regValue (s.withCapture c) r))
      (fun c => exec_ofRead_mapped r hd hm _) fun hstatus hinfo c d => ?_
    have hvalue := regValue_withCapture r (fun h => hstatus (h ▸ rfl)) (fun h => hinfo (h ▸ rfl)) s
    rw [hvalue c, hvalue d]
  · exact .keepsWith s .busError fun c => exec_ofRead_unmapped r hd hm _

/-- A write of `CMD` issues a command, or raises `ERR_ILLEGAL_CMD` whatever is held (60_exceptions R304). -/
theorem IgnoresCapture.writeCmd (v : Word) (hv : v ≠ Command.sreset.word) (s : State) :
    IgnoresCapture (.wrCmd v) s := by
  rcases execWrCmd_cases v s with ⟨k, rfl, -⟩ | ⟨e, he, -⟩
  · exact .command (.inr rfl) (fun hk => hv (hk ▸ rfl)) s
  · refine .raises .illegalCmd v .writeDone fun c => ?_
    show execWrCmd v _ = _
    simp only [execWrCmd, he, endCommand_error]

theorem IgnoresCapture.write (v : Word) (r : Reg) (hc : ¬ Clears (.ofWrite v r)) (s : State) :
    IgnoresCapture (.ofWrite v r) s := by
  by_cases hw : readOnly r = true
  · by_cases hm : r.mapped = true
    · exact .keepsWith s .writeDone fun c => exec_ofWrite_readOnly_mapped r hw hm v _
    · exact .keepsWith s .busError fun c => exec_ofWrite_readOnly_unmapped r hw hm v _
  · cases r
    case cmd => exact .writeCmd v (fun hv => hc (.inl (.inr (congrArg Instr.wrCmd hv)))) s
    case status =>
      have hv : ¬ v.getLsbD 2 = true := fun hv => hc (.inr ⟨v, hv, rfl⟩)
      exact .keepsWith s .writeDone fun _ => congrArg writeTo (if_neg hv)
    case ctrl => exact .keepsWith (s.setCtrl v) .writeDone fun _ => rfl
    case intEn => exact .keepsWith (s.setIntEn v) .writeDone fun _ => rfl
    case din => exact .keepsWith (s.setDin v) .writeDone fun _ => rfl
    case key j => exact .keepsWith (s.setKey j v) .writeDone fun _ => rfl
    case iv j => exact .keepsWith (s.setIv j v) .writeDone fun _ => rfl
    all_goals exact absurd rfl hw

/-- The capture stands in the way of no instruction (60_exceptions R300). -/
theorem exec_ignoresCapture (i : Instr) (hc : ¬ Clears i) (s : State) : IgnoresCapture i s := by
  rcases instr_cases i with ⟨k, rfl⟩ | ⟨r, rfl⟩ | ⟨v, r, rfl⟩
  · exact .command (.inl rfl) (fun hk => hc (.inl (.inl (congrArg Command.toInstr hk)))) s
  · exact .read r s
  · exact .write v r hc s

/-- Settles O22: the runs from the state itself and from the cleared one are the same run under two captures. -/
theorem errorsChangeNothingButTheCapture : Obligations.ErrorsChangeNothingButTheCapture := by
  intro i s t t0 h h0 hstatus hsreset hword
  have hc : ¬ Clears i := by
    rintro ((rfl | rfl) | ⟨v, hv, rfl⟩)
    · exact hsreset rfl
    · exact hword rfl
    · exact hstatus v hv rfl
  cases exec_ignoresCapture i hc s with
  | raises e info a hx =>
    obtain rfl : (s.raise e info).respond a = t := Host.Outcome.next.inj ((hx s).symm.trans h)
    obtain rfl : ((Spec.cleared s).raise e info).respond a = t0 :=
      Host.Outcome.next.inj ((hx (Spec.cleared s)).symm.trans h0)
    obtain ⟨hlo, hhi⟩ := e.code_range
    rw [raise_eq_captured s]
    exact ⟨fun _ => ⟨hlo, hhi, rfl⟩, fun herr => absurd herr (by simp)⟩
  | keeps u a hx ha =>
    obtain rfl : (u.withCapture s).respond (a s) = t := Host.Outcome.next.inj ((hx s).symm.trans h)
    obtain rfl : (u.withCapture (Spec.cleared s)).respond (a (Spec.cleared s)) = t0 :=
      Host.Outcome.next.inj ((hx (Spec.cleared s)).symm.trans h0)
    exact ⟨fun herr => absurd herr Bool.false_ne_true, fun _ => ⟨rfl, fun hs hi => ha hs hi _ _⟩⟩

end Sys2Proof.Machine
end

-- Proofs of 60_exceptions: no halt and no fault
section
/-! Every instruction and every step answers a next state (60_exceptions R300). -/

namespace Sys2Proof.Machine

/-- An instruction answers next: one that clears the capture by its own row, any other with or without an error. -/
theorem exec_completes (i : Instr) (s : State) : ∃ t, exec i s = .next t := by
  by_cases hc : Clears i
  · rcases hc with (rfl | rfl) | ⟨v, -, rfl⟩
    · exact ⟨_, rfl⟩
    · exact ⟨_, rfl⟩
    · exact ⟨_, rfl⟩
  · cases exec_ignoresCapture i hc s with
    | raises _ _ _ hx => exact ⟨_, hx s⟩
    | keeps _ _ hx _ => exact ⟨_, hx s⟩

/-- A command that succeeds, SRESET among them, changes neither the capacities nor the inputs to come. -/
theorem commandCore_params_inputs (k : Command) (s u : State) (h : commandCore k s = .ok u) :
    u.params = s.params ∧ u.inputs = s.inputs := by
  by_cases hk : k = .sreset
  · subst hk
    cases h
    exact ⟨rfl, rfl⟩
  · have hframe := (commandCore_frame k s u h).1 hk
    exact ⟨hframe.params, hframe.inputs⟩

/-- No instruction changes the capacities or the inputs to come (00_scope R6; assumption log 1). -/
theorem exec_params_inputs (i : Instr) (s t : State) (h : exec i s = .next t) :
    t.params = s.params ∧ t.inputs = s.inputs := by
  cases exec_effect i s t h
  case command k u _ hk => exact commandCore_params_inputs k s u hk
  all_goals exact ⟨by simp, by simp⟩

theorem serve_completes (x : HostAccess) (s : State) : ∃ t, serve x s = .next t := by
  unfold serve
  split
  · exact exec_completes _ s
  · exact ⟨_, rfl⟩

/-- Settles O10: a step waits, serves one access, or resets. -/
theorem everyStepAnswersNext : Obligations.EveryStepAnswersNext := by
  refine ⟨fun i s => ?_, fun s => ?_⟩
  · obtain ⟨t, ht⟩ := exec_completes i s
    exact ⟨t, ht, exec_params_inputs i s t ht⟩
  · unfold step
    split
    · exact ⟨s, rfl⟩
    · exact serve_completes _ _
    · exact ⟨_, rfl⟩

end Sys2Proof.Machine
end

-- Proofs of 70_reset_and_hazards: waiting and hardware reset
section
/-! The two steps that serve no access (70_reset_and_hazards R341, R342), and the state reset leaves. -/

namespace Sys2Proof.Machine

theorem step_waits (s : State) (hs : s.inputs = []) : step s = .next s := by
  simp only [step, hs]

/-- Hardware reset is taken from the inputs and silences the bus (assumption log 7). -/
theorem step_hardReset (s : State) (rest : List Input) (hs : s.inputs = .hardReset :: rest) :
    step s = .next ({ s with inputs := rest }.toReset.respond .idle) := by
  simp only [step, hs]

/-- Settles O9: hardware reset and SRESET both leave `toReset`, under two answers of the bus. -/
theorem blockWaitsAndHardwareResetResets : Obligations.BlockWaitsAndHardwareResetResets :=
  ⟨step_waits, fun s rest hs =>
    ⟨step_hardReset s rest hs, _, exec_succeeds .sreset { s with inputs := rest } _ rfl, step_hardReset s rest hs⟩⟩

/-- Settles O12: the default capacities are legal. -/
theorem resetMeetsInvariant : Obligations.ResetMeetsInvariant :=
  ⟨inv_resetWith Params.default (by decide), inv_resetWith⟩

end Sys2Proof.Machine
end

-- Proofs of 70_reset_and_hazards: the reset table and the derived configuration
section
/-! The table of 70_reset_and_hazards R340, and the values of 10_state R24 from the raw bits of a configuration word. -/

namespace Sys2Proof.Machine

/-! ### The reset state -/

/-- `STATUS` does not depend on the capacities, so it is the 0 of the reset with the defaults. -/
theorem statusWord_resetWith (p : Params) : statusWord (State.resetWith p) = 0 := by
  obtain ⟨-, -, -, hreset⟩ := statusFieldsReadAndClear
  exact hreset

theorem exec_rdCap_reset :
    exec .rdCap State.reset = .next { State.reset with resp := .readData 0x00400020 } := by
  have hcap : regValue State.reset .cap = 0x00400020 := by decide
  exact hcap ▸ exec_ofRead_mapped .cap (by simp) rfl State.reset

/-! ### The derived configuration (10_state R24) -/

/-- A `BLKW` other than 0 is the block size itself. -/
theorem blockWords_given (c : Word) (h : c.extractLsb' 16 5 ≠ 0) : blockWords c = (c.extractLsb' 16 5).toNat :=
  if_pos fun h0 => h (BitVec.eq_of_toNat_eq h0)

/-- `BLKW = 0` selects the native size of the algorithm. -/
theorem blockWords_native (c : Word) (a : Alg) (h : c.extractLsb' 16 5 = 0) (ha : c.extractLsb' 0 2 = a.bits) :
    blockWords c = nativeBlockWords a := by
  rw [blockWords, if_neg (by simp [blkwOf, h]), (algOf_eq_iff c a).2 ha]

/-- The key sizes that have a value: `KSZ` is at bits [9:8]. -/
theorem keyWords_of_ksz (c : Word) (x : BitVec 2) (hx : x ≠ 3) (h : c.extractLsb' 8 2 = x) :
    keyWords c = if x = 0 then 8 else if x = 1 then 4 else 6 := by
  have hksz : kszOf c ≠ 3 := by rwa [kszOf, h]
  rw [keyWords_eq_nk c hksz, Spec.nk, h]

/-- Blocks are kept back in decrypting AES alone: `ALG = 0` and `DIR = 1`. -/
theorem retains_iff (c : Word) :
    (algOf c = .aes ∧ decrypting c = true) ↔ (c.extractLsb' 0 2 = 0 ∧ c.getLsbD 2 = true) :=
  and_congr_left' (algOf_eq_iff c .aes)

/-- Settles O24: the table is the definition's, and each derived value is decided by the field it is derived from. -/
theorem resetStateIsAsTabled : Obligations.ResetStateIsAsTabled := by
  refine ⟨rfl, exec_rdCap_reset, fun p => ?_, rfl, rfl, rfl, rfl, by decide, fun c => ?_⟩
  · have hzero {n : Nat} (i : Fin n) : (Vector.replicate n (0 : Word))[i] = 0 := Vector.getElem_replicate i.isLt
    exact ⟨rfl, rfl, rfl, statusWord_resetWith p, rfl, rfl, rfl, rfl, rfl, rfl, rfl, rfl,
      fun i => ⟨hzero i, hzero i⟩, fun i => ⟨hzero i, hzero i⟩, fun i => ⟨hzero i, hzero i⟩⟩
  · refine ⟨algOf_eq_iff c .aes, algOf_eq_iff c .sha256, algOf_eq_iff c .md5, algOf_eq_iff c .pass, rfl, rfl, rfl,
      keyWords_of_ksz c 0 (by decide), keyWords_of_ksz c 1 (by decide), keyWords_of_ksz c 2 (by decide), rfl,
      blockWords_given c, fun hb ha => ?_, fun hb ha => ?_, rfl, fun h => if_pos ((retains_iff c).2 h),
      fun h => if_neg (mt (retains_iff c).1 h)⟩
    · exact ha.elim (blockWords_native c .sha256 hb) (blockWords_native c .md5 hb)
    · exact ha.elim (blockWords_native c .aes hb) (blockWords_native c .pass hb)

end Sys2Proof.Machine
end
